-- ==== Sys2Proof/Word.lean ====
section
/-! DEFINITION. The word types of the core (spec/00_scope.md R7, R9). -/

namespace Sys2Proof

/-- A register, address or PC value: `XLEN = 64` bits (R7, R9). -/
abbrev Word := BitVec 64

/-- One byte of the byte-addressed memory (R60). -/
abbrev Byte := BitVec 8

/-- One instruction word, `ILEN = 4` bytes (R7, R90). -/
abbrev InstWord := BitVec 32

/-- A register index, 0 to 31; index 31 is the zero register (R20). -/
abbrev Reg := BitVec 5

/-- The index of the zero register (R20). -/
abbrev zeroReg : Reg := 31#5

end Sys2Proof
end

