-- ==== Sys2Proof/Syntax.lean ====
section
/-! DEFINITION. The instructions of spec/opcode_table.json, one constructor a row, with the operand fields of
spec/30_encoding.md R91. The words outside the table have the tag `UNKNOWN` (R102), which is not an instruction of the
table and so no constructor here: it is `Machine.Tag.unknown`. -/

namespace Sys2Proof

/-- The shift kind of a shifted-register operand (R98). -/
inductive ShiftType where
  | lsl | lsr | asr | ror
  deriving DecidableEq, Repr

/-- The extension of an extended-register operand (R99). -/
inductive Extend where
  | uxtb | uxth | uxtw | uxtx | sxtb | sxth | sxtw | sxtx
  deriving DecidableEq, Repr

/-- The instructions of the table, in the table's order. Operands keep their encoded width (R91); what the decode
stage makes of an immediate field (R92 to R97) is in `Machine/Operands.lean`. -/
inductive Instr where
  /-- `ADD Xd, Xn, #imm12{, LSL #12}` (R271). -/
  | addI (sh : BitVec 1) (imm12 : BitVec 12) (rn rd : Reg)
  /-- `ADDS Xd, Xn, #imm12{, LSL #12}` (R272). -/
  | addsI (sh : BitVec 1) (imm12 : BitVec 12) (rn rd : Reg)
  /-- `SUB Xd, Xn, #imm12{, LSL #12}` (R273). -/
  | subI (sh : BitVec 1) (imm12 : BitVec 12) (rn rd : Reg)
  /-- `CMP Xn, #imm12{, LSL #12}` (R275). -/
  | cmpI (sh : BitVec 1) (imm12 : BitVec 12) (rn : Reg)
  /-- `SUBS Xd, Xn, #imm12{, LSL #12}`, `Rd` not 31 (R274). -/
  | subsI (sh : BitVec 1) (imm12 : BitVec 12) (rn rd : Reg)
  /-- `ADD Xd, Xn, Xm{, LSL|LSR|ASR #s}` (R277). -/
  | addSR (shift : ShiftType) (rm : Reg) (imm6 : BitVec 6) (rn rd : Reg)
  /-- `ADDS Xd, Xn, Xm{, LSL|LSR|ASR #s}` (R278). -/
  | addsSR (shift : ShiftType) (rm : Reg) (imm6 : BitVec 6) (rn rd : Reg)
  /-- `SUB Xd, Xn, Xm{, LSL|LSR|ASR #s}` (R279). -/
  | subSR (shift : ShiftType) (rm : Reg) (imm6 : BitVec 6) (rn rd : Reg)
  /-- `CMP Xn, Xm{, LSL|LSR|ASR #s}` (R281). -/
  | cmpSR (shift : ShiftType) (rm : Reg) (imm6 : BitVec 6) (rn : Reg)
  /-- `SUBS Xd, Xn, Xm{, LSL|LSR|ASR #s}`, `Rd` not 31 (R280). -/
  | subsSR (shift : ShiftType) (rm : Reg) (imm6 : BitVec 6) (rn rd : Reg)
  /-- `ADD Xd, Xn, Wm|Xm, <ext> #amt` (R283). -/
  | addER (rm : Reg) (option : Extend) (imm3 : BitVec 3) (rn rd : Reg)
  /-- `ADDS Xd, Xn, Wm|Xm, <ext> #amt` (R284). -/
  | addsER (rm : Reg) (option : Extend) (imm3 : BitVec 3) (rn rd : Reg)
  /-- `SUB Xd, Xn, Wm|Xm, <ext> #amt` (R285). -/
  | subER (rm : Reg) (option : Extend) (imm3 : BitVec 3) (rn rd : Reg)
  /-- `CMP Xn, Wm|Xm, <ext> #amt` (R287). -/
  | cmpER (rm : Reg) (option : Extend) (imm3 : BitVec 3) (rn : Reg)
  /-- `SUBS Xd, Xn, Wm|Xm, <ext> #amt`, `Rd` not 31 (R286). -/
  | subsER (rm : Reg) (option : Extend) (imm3 : BitVec 3) (rn rd : Reg)
  /-- `AND Xd, Xn, Xm{, LSL|LSR|ASR|ROR #s}` (R289). -/
  | andSR (shift : ShiftType) (rm : Reg) (imm6 : BitVec 6) (rn rd : Reg)
  /-- `ANDS Xd, Xn, Xm{, LSL|LSR|ASR|ROR #s}` (R290). -/
  | andsSR (shift : ShiftType) (rm : Reg) (imm6 : BitVec 6) (rn rd : Reg)
  /-- `ORR Xd, Xn, Xm{, LSL|LSR|ASR|ROR #s}` (R291). -/
  | orrSR (shift : ShiftType) (rm : Reg) (imm6 : BitVec 6) (rn rd : Reg)
  /-- `EOR Xd, Xn, Xm{, LSL|LSR|ASR|ROR #s}` (R292). -/
  | eorSR (shift : ShiftType) (rm : Reg) (imm6 : BitVec 6) (rn rd : Reg)
  /-- `LSL Xd, Xn, #shamt`, `shamt` 1 to 63 (R293). -/
  | lslI (shamt : BitVec 6) (rn rd : Reg)
  /-- `LSR Xd, Xn, #shamt`, `shamt` 0 to 63 (R294). -/
  | lsrI (shamt : BitVec 6) (rn rd : Reg)
  /-- `MOVZ Xd, #imm16{, LSL #16*hw}` (R295). -/
  | movz (hw : BitVec 2) (imm16 : BitVec 16) (rd : Reg)
  /-- `MUL Xd, Xn, Xm` (R296). -/
  | mul (rm rn rd : Reg)
  /-- `LDUR Xt, [Xn{, #simm9}]` (R301). -/
  | ldurX (imm9 : BitVec 9) (rn rt : Reg)
  /-- `LDUR Wt, [Xn{, #simm9}]` (R302). -/
  | ldurW (imm9 : BitVec 9) (rn rt : Reg)
  /-- `LDURH Wt, [Xn{, #simm9}]` (R303). -/
  | ldurh (imm9 : BitVec 9) (rn rt : Reg)
  /-- `LDURB Wt, [Xn{, #simm9}]` (R304). -/
  | ldurb (imm9 : BitVec 9) (rn rt : Reg)
  /-- `STUR Xt, [Xn{, #simm9}]` (R305). -/
  | sturX (imm9 : BitVec 9) (rn rt : Reg)
  /-- `STUR Wt, [Xn{, #simm9}]` (R306). -/
  | sturW (imm9 : BitVec 9) (rn rt : Reg)
  /-- `STURH Wt, [Xn{, #simm9}]` (R307). -/
  | sturh (imm9 : BitVec 9) (rn rt : Reg)
  /-- `STURB Wt, [Xn{, #simm9}]` (R308). -/
  | sturb (imm9 : BitVec 9) (rn rt : Reg)
  /-- `B label` (R321). -/
  | b (imm26 : BitVec 26)
  /-- `BR Xn` (R322). -/
  | br (rn : Reg)
  /-- `B.EQ label` (R324). -/
  | bEQ (imm19 : BitVec 19)
  /-- `B.NE label` (R325). -/
  | bNE (imm19 : BitVec 19)
  /-- `B.GE label` (R326). -/
  | bGE (imm19 : BitVec 19)
  /-- `B.LT label` (R327). -/
  | bLT (imm19 : BitVec 19)
  /-- `B.GT label` (R328). -/
  | bGT (imm19 : BitVec 19)
  /-- `B.LE label` (R329). -/
  | bLE (imm19 : BitVec 19)
  /-- `CBZ Xt, label` (R330). -/
  | cbz (imm19 : BitVec 19) (rt : Reg)
  /-- `CBNZ Xt, label` (R331). -/
  | cbnz (imm19 : BitVec 19) (rt : Reg)
  /-- `HLT #imm16` (R340). -/
  | hlt (imm16 : BitVec 16)
  deriving DecidableEq, Repr

end Sys2Proof
end

