-- ==== Sys2Proof/WellFormed.lean ====
section
/-! DEFINITION. Which instructions some word decodes to: the reserved-value checks of spec/30_encoding.md R97, R98, R99
and the `CMP` precedence of R101, as one decidable check on the syntax. -/

namespace Sys2Proof

/-- `ROR` is reserved in add/subtract shifted register (R98, R102). -/
def ShiftType.addSubLegal : ShiftType → Bool
  | .lsl => true
  | .lsr => true
  | .asr => true
  | .ror => false

/-- An extended-register left shift is 0 to 4 (R99, R102). -/
def extendAmountLegal (imm3 : BitVec 3) : Bool := decide (imm3.toNat ≤ 4)

/-- The check, one arm a constructor. `SUBS` with `Rd = 31` is spelled `CMP` (R101); `LSL #0` is spelled `LSR #0`
(R97). -/
def Instr.wellFormed : Instr → Bool
  | .addI _ _ _ _ => true
  | .addsI _ _ _ _ => true
  | .subI _ _ _ _ => true
  | .cmpI _ _ _ => true
  | .subsI _ _ _ rd => rd != zeroReg
  | .addSR shift _ _ _ _ => shift.addSubLegal
  | .addsSR shift _ _ _ _ => shift.addSubLegal
  | .subSR shift _ _ _ _ => shift.addSubLegal
  | .cmpSR shift _ _ _ => shift.addSubLegal
  | .subsSR shift _ _ _ rd => shift.addSubLegal && rd != zeroReg
  | .addER _ _ imm3 _ _ => extendAmountLegal imm3
  | .addsER _ _ imm3 _ _ => extendAmountLegal imm3
  | .subER _ _ imm3 _ _ => extendAmountLegal imm3
  | .cmpER _ _ imm3 _ => extendAmountLegal imm3
  | .subsER _ _ imm3 _ rd => extendAmountLegal imm3 && rd != zeroReg
  | .andSR _ _ _ _ _ => true
  | .andsSR _ _ _ _ _ => true
  | .orrSR _ _ _ _ _ => true
  | .eorSR _ _ _ _ _ => true
  | .lslI shamt _ _ => shamt != 0#6
  | .lsrI _ _ _ => true
  | .movz _ _ _ => true
  | .mul _ _ _ => true
  | .ldurX _ _ _ => true
  | .ldurW _ _ _ => true
  | .ldurh _ _ _ => true
  | .ldurb _ _ _ => true
  | .sturX _ _ _ => true
  | .sturW _ _ _ => true
  | .sturh _ _ _ => true
  | .sturb _ _ _ => true
  | .b _ => true
  | .br _ => true
  | .bEQ _ => true
  | .bNE _ => true
  | .bGE _ => true
  | .bLT _ => true
  | .bGT _ => true
  | .bLE _ => true
  | .cbz _ _ => true
  | .cbnz _ _ => true
  | .hlt _ => true

end Sys2Proof
end

