-- ==== Sys2Proof/Decode.lean ====
section
/-! DEFINITION. The decode table of spec/30_encoding.md (R90 to R105) and the encoder, both from the match and mask
values of R105 and the formats of R91. The decoder is total and pure (R101); a word it does not recognise is rejected by
name, and every rejection is the one tag `UNKNOWN` of the machine (R102). -/

namespace Sys2Proof

/-- Why a word has the tag `UNKNOWN` (R102). -/
inductive Reject where
  /-- No row of the table matches. -/
  | noRow
  /-- `ADDSUB_SR` with `shift = 11` (R98). -/
  | rorInAddSub
  /-- `ADDSUB_ER` with `imm3 > 4` (R99). -/
  | extendAmount
  /-- A `BITFIELD` word that R97 classifies as neither `LSL` nor `LSR`. -/
  | bitfieldForm
  /-- A `BCOND` word whose `cond` is not one of the six (R100). -/
  | conditionCode
  /-- Fewer than the four bytes of an instruction (R90). -/
  | truncated
  deriving DecidableEq, Repr

/-- What the decoder answers. -/
inductive Decoded where
  | instr (i : Instr)
  | rejected (why : Reject)
  deriving DecidableEq, Repr

/-- The shift kind of a two-bit field (R98). -/
def ShiftType.ofBits (v : BitVec 2) : ShiftType :=
  match v.toNat with
  | 0 => .lsl
  | 1 => .lsr
  | 2 => .asr
  | _ => .ror

/-- The two-bit field of a shift kind (R98). -/
def ShiftType.bits : ShiftType → BitVec 2
  | .lsl => 0b00#2
  | .lsr => 0b01#2
  | .asr => 0b10#2
  | .ror => 0b11#2

/-- The extension of a three-bit option (R99). -/
def Extend.ofBits (v : BitVec 3) : Extend :=
  match v.toNat with
  | 0 => .uxtb
  | 1 => .uxth
  | 2 => .uxtw
  | 3 => .uxtx
  | 4 => .sxtb
  | 5 => .sxth
  | 6 => .sxtw
  | _ => .sxtx

/-- The three-bit option of an extension (R99). -/
def Extend.bits : Extend → BitVec 3
  | .uxtb => 0b000#3
  | .uxth => 0b001#3
  | .uxtw => 0b010#3
  | .uxtx => 0b011#3
  | .sxtb => 0b100#3
  | .sxth => 0b101#3
  | .sxtw => 0b110#3
  | .sxtx => 0b111#3

/-- The field of `n` bits of `w` whose lowest bit is bit `lo` (R9). -/
def field (w : InstWord) (lo n : Nat) : BitVec n := w.extractLsb' lo n

/-! ### The formats (R91) -/

def readAddSubImm (mk : BitVec 1 → BitVec 12 → Reg → Reg → Instr) (w : InstWord) : Decoded :=
  .instr (mk (field w 22 1) (field w 10 12) (field w 5 5) (field w 0 5))

def readCmpImm (w : InstWord) : Decoded :=
  .instr (.cmpI (field w 22 1) (field w 10 12) (field w 5 5))

def readShifted (mk : ShiftType → Reg → BitVec 6 → Reg → Reg → Instr) (w : InstWord) : Decoded :=
  .instr (mk (ShiftType.ofBits (field w 22 2)) (field w 16 5) (field w 10 6) (field w 5 5) (field w 0 5))

/-- `ADDSUB_SR`: the shifted-register form without `ROR` (R98, R102). -/
def readAddSubShifted (mk : ShiftType → Reg → BitVec 6 → Reg → Reg → Instr) (w : InstWord) : Decoded :=
  if (ShiftType.ofBits (field w 22 2)).addSubLegal then readShifted mk w else .rejected .rorInAddSub

/-- `ADDSUB_ER`: an amount above 4 is reserved (R99, R102). -/
def readAddSubExtended (mk : Reg → Extend → BitVec 3 → Reg → Reg → Instr) (w : InstWord) : Decoded :=
  if extendAmountLegal (field w 10 3) then
    .instr (mk (field w 16 5) (Extend.ofBits (field w 13 3)) (field w 10 3) (field w 5 5) (field w 0 5))
  else .rejected .extendAmount

/-- `BITFIELD`: the classification of R97. -/
def readBitfield (w : InstWord) : Decoded :=
  let immr := field w 16 6
  let imms := field w 10 6
  if imms = 63#6 then .instr (.lsrI immr (field w 5 5) (field w 0 5))
  else if immr = imms + 1#6 then .instr (.lslI (63#6 - imms) (field w 5 5) (field w 0 5))
  else .rejected .bitfieldForm

def readMoveWide (w : InstWord) : Decoded := .instr (.movz (field w 21 2) (field w 5 16) (field w 0 5))

def readMul (w : InstWord) : Decoded := .instr (.mul (field w 16 5) (field w 5 5) (field w 0 5))

def readLoadStore (mk : BitVec 9 → Reg → Reg → Instr) (w : InstWord) : Decoded :=
  .instr (mk (field w 12 9) (field w 5 5) (field w 0 5))

def readBranch (w : InstWord) : Decoded := .instr (.b (field w 0 26))

def readBranchReg (w : InstWord) : Decoded := .instr (.br (field w 5 5))

def readBranchCond (mk : BitVec 19 → Instr) (w : InstWord) : Decoded := .instr (mk (field w 5 19))

def readCompareBranch (mk : BitVec 19 → Reg → Instr) (w : InstWord) : Decoded :=
  .instr (mk (field w 5 19) (field w 0 5))

def readHalt (w : InstWord) : Decoded := .instr (.hlt (field w 5 16))

/-! ### The table (R101, R105) -/

/-- One row of spec/opcode_table.json: its mnemonic, mask and match, and how the row's operands are read. -/
structure Row where
  mnemonic : String
  mask     : InstWord
  value    : InstWord
  read     : InstWord → Decoded

/-- The row's test: `word & mask == match` (R101). -/
def Row.hits (r : Row) (w : InstWord) : Bool := w &&& r.mask == r.value

/-- The add and subtract rows; each `CMP` row stands before its `SUBS` row (R101). -/
def addSubRows : List Row := [
  ⟨"ADD_I", 0xFF800000#32, 0x91000000#32, readAddSubImm .addI⟩,
  ⟨"ADDS_I", 0xFF800000#32, 0xB1000000#32, readAddSubImm .addsI⟩,
  ⟨"SUB_I", 0xFF800000#32, 0xD1000000#32, readAddSubImm .subI⟩,
  ⟨"CMP_I", 0xFF80001F#32, 0xF100001F#32, readCmpImm⟩,
  ⟨"SUBS_I", 0xFF800000#32, 0xF1000000#32, readAddSubImm .subsI⟩,
  ⟨"ADD_SR", 0xFF200000#32, 0x8B000000#32, readAddSubShifted .addSR⟩,
  ⟨"ADDS_SR", 0xFF200000#32, 0xAB000000#32, readAddSubShifted .addsSR⟩,
  ⟨"SUB_SR", 0xFF200000#32, 0xCB000000#32, readAddSubShifted .subSR⟩,
  ⟨"CMP_SR", 0xFF20001F#32, 0xEB00001F#32, readAddSubShifted fun shift rm imm6 rn _ => .cmpSR shift rm imm6 rn⟩,
  ⟨"SUBS_SR", 0xFF200000#32, 0xEB000000#32, readAddSubShifted .subsSR⟩,
  ⟨"ADD_ER", 0xFFE00000#32, 0x8B200000#32, readAddSubExtended .addER⟩,
  ⟨"ADDS_ER", 0xFFE00000#32, 0xAB200000#32, readAddSubExtended .addsER⟩,
  ⟨"SUB_ER", 0xFFE00000#32, 0xCB200000#32, readAddSubExtended .subER⟩,
  ⟨"CMP_ER", 0xFFE0001F#32, 0xEB20001F#32, readAddSubExtended fun rm option imm3 rn _ => .cmpER rm option imm3 rn⟩,
  ⟨"SUBS_ER", 0xFFE00000#32, 0xEB200000#32, readAddSubExtended .subsER⟩ ]

/-- The logical, shift, move and multiply rows. -/
def aluRows : List Row := [
  ⟨"AND_SR", 0xFF200000#32, 0x8A000000#32, readShifted .andSR⟩,
  ⟨"ANDS_SR", 0xFF200000#32, 0xEA000000#32, readShifted .andsSR⟩,
  ⟨"ORR_SR", 0xFF200000#32, 0xAA000000#32, readShifted .orrSR⟩,
  ⟨"EOR_SR", 0xFF200000#32, 0xCA000000#32, readShifted .eorSR⟩,
  ⟨"LSL_I", 0xFFC00000#32, 0xD3400000#32, readBitfield⟩,
  ⟨"LSR_I", 0xFFC00000#32, 0xD3400000#32, readBitfield⟩,
  ⟨"MOVZ", 0xFF800000#32, 0xD2800000#32, readMoveWide⟩,
  ⟨"MUL", 0xFFE0FC00#32, 0x9B007C00#32, readMul⟩ ]

/-- The load and store rows. -/
def loadStoreRows : List Row := [
  ⟨"LDUR_X", 0xFFE00C00#32, 0xF8400000#32, readLoadStore .ldurX⟩,
  ⟨"LDUR_W", 0xFFE00C00#32, 0xB8400000#32, readLoadStore .ldurW⟩,
  ⟨"LDURH", 0xFFE00C00#32, 0x78400000#32, readLoadStore .ldurh⟩,
  ⟨"LDURB", 0xFFE00C00#32, 0x38400000#32, readLoadStore .ldurb⟩,
  ⟨"STUR_X", 0xFFE00C00#32, 0xF8000000#32, readLoadStore .sturX⟩,
  ⟨"STUR_W", 0xFFE00C00#32, 0xB8000000#32, readLoadStore .sturW⟩,
  ⟨"STURH", 0xFFE00C00#32, 0x78000000#32, readLoadStore .sturh⟩,
  ⟨"STURB", 0xFFE00C00#32, 0x38000000#32, readLoadStore .sturb⟩ ]

/-- The branch and halt rows. -/
def controlRows : List Row := [
  ⟨"B", 0xFC000000#32, 0x14000000#32, readBranch⟩,
  ⟨"BR", 0xFFFFFC1F#32, 0xD61F0000#32, readBranchReg⟩,
  ⟨"B.EQ", 0xFF00001F#32, 0x54000000#32, readBranchCond .bEQ⟩,
  ⟨"B.NE", 0xFF00001F#32, 0x54000001#32, readBranchCond .bNE⟩,
  ⟨"B.GE", 0xFF00001F#32, 0x5400000A#32, readBranchCond .bGE⟩,
  ⟨"B.LT", 0xFF00001F#32, 0x5400000B#32, readBranchCond .bLT⟩,
  ⟨"B.GT", 0xFF00001F#32, 0x5400000C#32, readBranchCond .bGT⟩,
  ⟨"B.LE", 0xFF00001F#32, 0x5400000D#32, readBranchCond .bLE⟩,
  ⟨"CBZ", 0xFF000000#32, 0xB4000000#32, readCompareBranch .cbz⟩,
  ⟨"CBNZ", 0xFF000000#32, 0xB5000000#32, readCompareBranch .cbnz⟩,
  ⟨"HLT", 0xFFE0001F#32, 0xD4400000#32, readHalt⟩ ]

/-- The 42 rows in the table's order. -/
def opcodeRows : List Row := addSubRows ++ aluRows ++ loadStoreRows ++ controlRows

/-- A word no row matches: a `BCOND` word has a condition outside the six (R100), any other word is outside the subset. -/
def rejectUnmatched (w : InstWord) : Reject :=
  if w &&& 0xFF000010#32 = 0x54000000#32 then .conditionCode else .noRow

/-- The first row that matches reads the word (R101). -/
def decodeRows : List Row → InstWord → Decoded
  | [], w => .rejected (rejectUnmatched w)
  | r :: rest, w => if r.hits w then r.read w else decodeRows rest w

/-- `Decode(word)` (R101). -/
def decode (w : InstWord) : Decoded := decodeRows opcodeRows w

/-- An instruction's bytes, the least significant first (R62), as its word. -/
def wordOfBytes (b0 b1 b2 b3 : Byte) : InstWord := b3 ++ b2 ++ b1 ++ b0

/-- The decoder on bytes as they lie in memory, the first at the lowest address: it reads the four bytes of an
instruction (R90) and leaves the rest. -/
def decodeBytes : List Byte → Decoded
  | b0 :: b1 :: b2 :: b3 :: _ => decode (wordOfBytes b0 b1 b2 b3)
  | _ => .rejected .truncated

/-- Byte `k` of an instruction word as the memory holds it (R62). -/
def byteOfWord (w : InstWord) (k : Nat) : Byte := w.extractLsb' (8 * k) 8

/-- The word whose bits `nbits-1` to `0` are those of `w` and whose other bits are 0. -/
def tableWord (nbits w : Nat) : InstWord := BitVec.ofNat 32 (w % 2 ^ nbits)

/-- The instruction the decoder reads from a word of the opcode table, by way of its bytes in memory. -/
def decodeTableWord (nbits w : Nat) : Option Instr :=
  match decodeBytes ((List.range 4).map (byteOfWord (tableWord nbits w))) with
  | .instr i => some i
  | .rejected _ => none

/-! ### The encoder (R91, R105) -/

/-- A field's value at its place in the word. -/
def place {n : Nat} (v : BitVec n) (lo : Nat) : InstWord := v.setWidth 32 <<< lo

def encAddSubImm (base : InstWord) (sh : BitVec 1) (imm12 : BitVec 12) (rn rd : Reg) : InstWord :=
  base ||| place sh 22 ||| place imm12 10 ||| place rn 5 ||| place rd 0

def encShifted (base : InstWord) (shift : ShiftType) (rm : Reg) (imm6 : BitVec 6) (rn rd : Reg) : InstWord :=
  base ||| place shift.bits 22 ||| place rm 16 ||| place imm6 10 ||| place rn 5 ||| place rd 0

def encExtended (base : InstWord) (rm : Reg) (option : Extend) (imm3 : BitVec 3) (rn rd : Reg) : InstWord :=
  base ||| place rm 16 ||| place option.bits 13 ||| place imm3 10 ||| place rn 5 ||| place rd 0

/-- `UBFM Xd, Xn, #immr, #imms` (R97, R107). -/
def encBitfield (immr imms : BitVec 6) (rn rd : Reg) : InstWord :=
  0xD3400000#32 ||| place immr 16 ||| place imms 10 ||| place rn 5 ||| place rd 0

def encLoadStore (base : InstWord) (imm9 : BitVec 9) (rn rt : Reg) : InstWord :=
  base ||| place imm9 12 ||| place rn 5 ||| place rt 0

def encBranchCond (base : InstWord) (imm19 : BitVec 19) : InstWord := base ||| place imm19 5

def encCompareBranch (base : InstWord) (imm19 : BitVec 19) (rt : Reg) : InstWord :=
  base ||| place imm19 5 ||| place rt 0

/-- The word of a well-formed instruction. -/
def encode : Instr → InstWord
  | .addI sh imm12 rn rd => encAddSubImm 0x91000000#32 sh imm12 rn rd
  | .addsI sh imm12 rn rd => encAddSubImm 0xB1000000#32 sh imm12 rn rd
  | .subI sh imm12 rn rd => encAddSubImm 0xD1000000#32 sh imm12 rn rd
  | .cmpI sh imm12 rn => encAddSubImm 0xF1000000#32 sh imm12 rn zeroReg
  | .subsI sh imm12 rn rd => encAddSubImm 0xF1000000#32 sh imm12 rn rd
  | .addSR shift rm imm6 rn rd => encShifted 0x8B000000#32 shift rm imm6 rn rd
  | .addsSR shift rm imm6 rn rd => encShifted 0xAB000000#32 shift rm imm6 rn rd
  | .subSR shift rm imm6 rn rd => encShifted 0xCB000000#32 shift rm imm6 rn rd
  | .cmpSR shift rm imm6 rn => encShifted 0xEB000000#32 shift rm imm6 rn zeroReg
  | .subsSR shift rm imm6 rn rd => encShifted 0xEB000000#32 shift rm imm6 rn rd
  | .addER rm option imm3 rn rd => encExtended 0x8B200000#32 rm option imm3 rn rd
  | .addsER rm option imm3 rn rd => encExtended 0xAB200000#32 rm option imm3 rn rd
  | .subER rm option imm3 rn rd => encExtended 0xCB200000#32 rm option imm3 rn rd
  | .cmpER rm option imm3 rn => encExtended 0xEB200000#32 rm option imm3 rn zeroReg
  | .subsER rm option imm3 rn rd => encExtended 0xEB200000#32 rm option imm3 rn rd
  | .andSR shift rm imm6 rn rd => encShifted 0x8A000000#32 shift rm imm6 rn rd
  | .andsSR shift rm imm6 rn rd => encShifted 0xEA000000#32 shift rm imm6 rn rd
  | .orrSR shift rm imm6 rn rd => encShifted 0xAA000000#32 shift rm imm6 rn rd
  | .eorSR shift rm imm6 rn rd => encShifted 0xCA000000#32 shift rm imm6 rn rd
  | .lslI shamt rn rd => encBitfield (0#6 - shamt) (63#6 - shamt) rn rd
  | .lsrI shamt rn rd => encBitfield shamt 63#6 rn rd
  | .movz hw imm16 rd => 0xD2800000#32 ||| place hw 21 ||| place imm16 5 ||| place rd 0
  | .mul rm rn rd => 0x9B007C00#32 ||| place rm 16 ||| place rn 5 ||| place rd 0
  | .ldurX imm9 rn rt => encLoadStore 0xF8400000#32 imm9 rn rt
  | .ldurW imm9 rn rt => encLoadStore 0xB8400000#32 imm9 rn rt
  | .ldurh imm9 rn rt => encLoadStore 0x78400000#32 imm9 rn rt
  | .ldurb imm9 rn rt => encLoadStore 0x38400000#32 imm9 rn rt
  | .sturX imm9 rn rt => encLoadStore 0xF8000000#32 imm9 rn rt
  | .sturW imm9 rn rt => encLoadStore 0xB8000000#32 imm9 rn rt
  | .sturh imm9 rn rt => encLoadStore 0x78000000#32 imm9 rn rt
  | .sturb imm9 rn rt => encLoadStore 0x38000000#32 imm9 rn rt
  | .b imm26 => 0x14000000#32 ||| place imm26 0
  | .br rn => 0xD61F0000#32 ||| place rn 5
  | .bEQ imm19 => encBranchCond 0x54000000#32 imm19
  | .bNE imm19 => encBranchCond 0x54000001#32 imm19
  | .bGE imm19 => encBranchCond 0x5400000A#32 imm19
  | .bLT imm19 => encBranchCond 0x5400000B#32 imm19
  | .bGT imm19 => encBranchCond 0x5400000C#32 imm19
  | .bLE imm19 => encBranchCond 0x5400000D#32 imm19
  | .cbz imm19 rt => encCompareBranch 0xB4000000#32 imm19 rt
  | .cbnz imm19 rt => encCompareBranch 0xB5000000#32 imm19 rt
  | .hlt imm16 => 0xD4400000#32 ||| place imm16 5

end Sys2Proof
end

