-- ==== Sys2Proof/Config.lean ====
section
/-! DEFINITION. The implementation parameters of spec/00_scope.md R7, their validity (R8), and the one free value of
the model: the byte of an admitted address that the launch's memory image does not give (spec/20_memory.md R76).

R7 asks that a model take the parameters as an argument. The host fixes the type of the step, so the record is carried
in the state and no step changes it (notes/assumptions/1.md). -/

namespace Sys2Proof

/-- Geometry and miss penalty of one cache: block bytes, sets, ways, extra cycles of a miss (R7, R240). -/
structure CacheGeometry where
  block   : Nat
  sets    : Nat
  ways    : Nat
  penalty : Nat
  deriving DecidableEq, Repr

/-- A range of byte addresses, both ends included: one piece of `MEM_ADMIT` (R67). -/
structure AddrRange where
  first : Nat
  last  : Nat
  deriving DecidableEq, Repr

/-- The configuration of R7. `memAdmit` gives the admitted words as ranges of their addresses. -/
structure Config where
  /-- `H`, the width of the global history (R31). -/
  ghrBits  : Nat
  /-- `BTB_BITS`, the width of the BTB index (R33). -/
  btbBits  : Nat
  ic       : CacheGeometry
  dc       : CacheGeometry
  resetPc  : Word
  memAdmit : List AddrRange
  deriving DecidableEq, Repr

/-- The defaults of R7. `MEM_ADMIT` is open (D5): here every word is admitted, which is the default that
spec/92_eei_decisions.md names for the test vectors. -/
def Config.default : Config where
  ghrBits  := 8
  btbBits  := 10
  ic       := ⟨32, 64, 4, 50⟩
  dc       := ⟨32, 256, 8, 50⟩
  resetPc  := 0x400000#64
  memAdmit := [⟨0, 2 ^ 64 - 1⟩]

/-- A power of two (R8). -/
def isPowerOfTwo (n : Nat) : Bool := n != 0 && 2 ^ n.log2 == n

/-- The cache bounds of R8: power-of-two block and set count, a block of at least 4 bytes, at least one way. -/
def CacheGeometry.valid (g : CacheGeometry) : Bool :=
  isPowerOfTwo g.block && isPowerOfTwo g.sets && decide (4 ≤ g.block) && decide (1 ≤ g.ways)

/-- Configuration validity (R8). No machine state exists for a configuration that fails it. -/
def Config.valid (c : Config) : Bool :=
  c.ic.valid && c.dc.valid && decide (1 ≤ c.ghrBits) && decide (1 ≤ c.btbBits) && c.resetPc.toNat % 4 == 0

/-- THE FREE VALUE of the model: what byte `a` holds at launch where the memory image does not give it. R76: a model
takes such a value as a free draw of the launch, never as 0. It has no body, so no proof can know it. -/
opaque Config.initByte : Nat → Byte

end Sys2Proof
end

