-- ==== Sys2Proof/Machine/State.lean ====
section
/-! DEFINITION. The state of the core (spec/10_state.md R20 to R37, spec/40_pipeline_engine.md R130) together with the
external memory (spec/20_memory.md R61), as plain data, and the reset state (spec/70_reset_and_hazards.md R370).
INVENTORY.md lists every component with its rule and its reset value. -/

namespace Sys2Proof.Machine

/-! ### Names -/

/-- The operation tag of a micro-op (R101): an instruction of the table with its decoded fields, or `UNKNOWN`. The
fields of R25 that a tag declares (`rd`, `rn`, `rm`, `rt`, `imm`, `shamt`, `shift_type`, `ext_option`, `ext_amount`,
`cond`) are the instruction's operands; a field it does not declare is absent, as R25 allows. -/
inductive Tag where
  | instr (i : Instr)
  | unknown
  deriving DecidableEq, Repr

/-- The position of the stage sequencer, which runs the stages in the order WB, MEM, EX, DE, IF in every cycle (R131).
Between cycles it stands at `wb`, the first stage of the next cycle. -/
inductive Stage where
  | wb | mem | ex | de | fetch
  deriving DecidableEq, Repr

/-- The reasons of the fault record `FAULT` (spec/60_exceptions.md R352). A fault is recorded in `State.fault` and the
cycle still answers a next state, the one R351 describes; no step answers `Outcome.fault`. -/
inductive Fault where
  /-- Code 1, raised by execute: a branch resolves to an address that is not a multiple of 4 (D4). Safe: the spec's own stop. -/
  | misalignedTarget
  /-- Code 2, raised by decode: it consumes a fetch-fault micro-op (D5). Safe: the spec's own stop. -/
  | fetchNotAdmitted
  /-- Code 3, raised by the memory stage: an access touches a word outside `MEM_ADMIT` (D5). Safe: the spec's own stop. -/
  | dataNotAdmitted
  /-- Code 4, raised by the forwarding network: a load in EX→MEM whose `rt` an operand needs (D32). Safe: the spec's own stop. -/
  | forwardFromLoad
  deriving DecidableEq, Repr

/-- The code of a fault reason (R352). -/
def Fault.code : Fault → Nat
  | .misalignedTarget => 1
  | .fetchNotAdmitted => 2
  | .dataNotAdmitted  => 3
  | .forwardFromLoad  => 4

/-- The reasons for which the model gives no meaning. -/
inductive Refusal where
  /-- An instruction of the table that has no meaning yet, raised by `exec`. No arm uses it. Safe. -/
  | notModelled (mnemonic : String)
  deriving DecidableEq, Repr

/-! ### Latches -/

/-- The micro-op record of R25. Its bubble flag `nop` is the `none` of a latch: a bubble's other fields are
don't-care (R26), so a bubble holds none. -/
structure MicroOp where
  /-- Raw instruction word. -/
  word       : InstWord
  /-- The address the word was fetched from. -/
  pc         : Word
  /-- Operation tag and decoded fields. -/
  tag        : Tag
  /-- Operand values, read at decode and refreshed by forwarding. -/
  rnVal      : Word
  rmVal      : Word
  rtVal      : Word
  /-- ALU result. -/
  result     : Word
  /-- Effective address. -/
  memAddr    : Word
  /-- Store data, or the loaded value. -/
  memVal     : Word
  /-- Computed flags. -/
  fz         : Bool
  fn         : Bool
  /-- Branch target. -/
  target     : Word
  /-- Branch taken. -/
  taken      : Bool
  /-- Predicted next PC. -/
  predPc     : Word
  /-- The BTB missed at fetch. -/
  btbMiss    : Bool
  /-- PHT index used at fetch, `H` bits. -/
  phtIdx     : Nat
  /-- The fetch address was not admitted (D5). -/
  fetchFault : Bool
  deriving DecidableEq, Repr

/-- A pipeline register: one slot, a micro-op or a bubble (R26, R27). -/
abbrev Latch := Option MicroOp

/-- One copy of the four inter-stage latches (R27). -/
structure Latches where
  ifde  : Latch
  deex  : Latch
  exmem : Latch
  memwb : Latch
  deriving DecidableEq, Repr

/-- All four latches bubbles (R27, R370). -/
def Latches.empty : Latches := ⟨none, none, none, none⟩

/-! ### Tables held by key -/

/-- Sparse data by key: entries with keys strictly rising; what an unlisted key reads as is said where it is read. -/
abbrev Table (β : Type) := List (Nat × β)

/-- The external memory: the bytes that the image gave or a store wrote (R61). An unlisted address holds its launch
value `Config.initByte` (R76). -/
abbrev Memory := Table Byte

/-! ### Predictor, caches, control -/

/-- A BTB entry (R33): the full PC of the branch that trained it, its target, and whether it is conditional. -/
structure BtbEntry where
  valid  : Bool
  tag    : Word
  target : Word
  cond   : Bool
  deriving DecidableEq, Repr

/-- What an untrained BTB index holds (R33, R370). -/
def BtbEntry.invalid : BtbEntry := ⟨false, 0#64, 0#64, false⟩

/-- A two-bit saturating counter (R32). -/
abbrev Counter := BitVec 2

/-- The branch-prediction unit (R210): `GHR` of `H` bits, `PHT` (an unlisted counter is 0), `BTB` (an unlisted entry is
invalid). -/
structure Predictor where
  ghr : Nat
  pht : Table Counter
  btb : Table BtbEntry
  deriving DecidableEq, Repr

/-- The writes of one predictor update (R220). -/
structure PredUpdate where
  btbIdx   : Nat
  btbEntry : BtbEntry
  /-- Index and new counter, for a conditional branch. -/
  pht      : Option (Nat × Counter)
  /-- New history, for a conditional branch. -/
  ghr      : Option Nat
  deriving DecidableEq, Repr

/-- A cache way: valid bit, tag, recency counter (R34). -/
structure Way where
  valid : Bool
  tag   : Nat
  age   : Nat
  deriving DecidableEq, Repr

/-- An empty way (R34, R370). -/
def Way.invalid : Way := ⟨false, 0, 0⟩

/-- A fill in progress: the block address and the cycle starts still to pass before it is installed (R35). -/
structure Fill where
  block     : Nat
  remaining : Nat
  deriving DecidableEq, Repr

/-- A cache: its sets by set index (an unlisted set has every way invalid) and its fill engine (R34, R35). -/
structure Cache where
  sets : Table (List Way)
  fill : Option Fill
  deriving DecidableEq, Repr

/-- The control signals of one cycle (R29, R156), cleared at the end of every cycle (R149). -/
structure Control where
  clearDecode              : Bool
  loadStall                : Bool
  memStall                 : Bool
  updateExecuteWithSavedOp : Bool
  /-- The value `PC` takes at the end of the cycle, once a stage has chosen it. -/
  nextPc                   : Option Word
  /-- The resolved next PC of the branch in execute (R222). -/
  resolved                 : Option Word
  /-- The predictor update of the branch in execute (R220). -/
  upd                      : Option PredUpdate
  deriving DecidableEq, Repr

/-- The control signals at the start of a cycle (R29). -/
def Control.cleared : Control := ⟨false, false, false, false, none, none, none⟩

/-! ### The state -/

/-- The full state of the hardware (R130) with the external memory. -/
structure State where
  /-- The configuration, fixed for a run (R7, R38, R371). -/
  cfg      : Config
  /-- `X0` to `X30` (R20). -/
  x        : Vector Word 31
  /-- The zero and negative flags (R23). -/
  z        : Bool
  n        : Bool
  /-- The fetch address (R24). -/
  pc       : Word
  /-- The external memory `M` (R61). -/
  mem      : Memory
  /-- `L.*`, the latches as the stages read them (R27). -/
  prev     : Latches
  /-- `N.*`, the latches as the stages write them (R27). -/
  cur      : Latches
  /-- Where the stage sequencer stands (R131). -/
  stage    : Stage
  /-- The deferred halt signal `HALT` (R28). -/
  halt     : Bool
  /-- The run-stop condition `RUN_STOP` (R30). -/
  runStop  : Bool
  /-- The one-shot control signals (R29). -/
  ctl      : Control
  /-- `GHR`, `PHT`, `BTB` (R31 to R33). -/
  bp       : Predictor
  /-- The instruction cache with `IFILL` (R34, R35). -/
  ic       : Cache
  /-- The data cache with `DFILL` (R34, R35). -/
  dc       : Cache
  /-- The statistics (R36). -/
  cycles   : Word
  retired  : Word
  squashes : Word
  /-- The fault record `FAULT` (R37). -/
  fault    : Option Fault
  deriving DecidableEq, Repr

/-- The state that reset makes of a configuration and a memory (R370). -/
def State.initial (c : Config) (m : Memory) : State where
  cfg      := c
  x        := Vector.replicate 31 0#64
  z        := false
  n        := false
  pc       := c.resetPc
  mem      := m
  prev     := Latches.empty
  cur      := Latches.empty
  stage    := .wb
  halt     := false
  runStop  := false
  ctl      := Control.cleared
  bp       := ⟨0, [], []⟩
  ic       := ⟨[], none⟩
  dc       := ⟨[], none⟩
  cycles   := 0#64
  retired  := 0#64
  squashes := 0#64
  fault    := none

/-- The machine right after reset with the default configuration and no memory image (R370, R7). -/
def State.reset : State := State.initial Config.default []

end Sys2Proof.Machine
end

