-- ==== Sys2Proof/Machine/Flags.lean ====
section
/-! DEFINITION. The flag computation (spec/44_alu.md R297) and the six conditions (spec/46_branch.md R323). -/

namespace Sys2Proof.Machine

/-- The `Z` half of `NZ(r)` (R297). -/
def flagZ (r : Word) : Bool := r == 0#64

/-- The `N` half of `NZ(r)` (R297). -/
def flagN (r : Word) : Bool := r.msb

/-- The condition codes of R100. -/
inductive Cond where
  | eq | ne | ge | lt | gt | le
  deriving DecidableEq, Repr

/-- `CondHolds(cond, Zf, Nf)` (R323): there is no overflow flag, so `V = 0` (D33). -/
def condHolds (c : Cond) (zf nf : Bool) : Bool :=
  match c with
  | .eq => zf
  | .ne => !zf
  | .ge => !nf
  | .lt => nf
  | .gt => !zf && !nf
  | .le => zf || nf

end Sys2Proof.Machine
end

