-- ==== Sys2Proof/Machine/Operands.lean ====
section
/-! DEFINITION. Operand forms: the immediates of spec/30_encoding.md R92 to R97, the shifted and extended register
operands of R98 and R99, and the declared-field table of R104. -/

namespace Sys2Proof.Machine

/-! ### Immediates -/

/-- Add/subtract immediate (R92). -/
def addSubImm (sh : BitVec 1) (imm12 : BitVec 12) : Word := imm12.setWidth 64 <<< (12 * sh.toNat)

/-- Load/store byte offset, unscaled (R93). -/
def loadStoreOffset (imm9 : BitVec 9) : Word := imm9.signExtend 64

/-- Unconditional branch offset (R94). -/
def branchOffset (imm26 : BitVec 26) : Word := (imm26 ++ 0b00#2).signExtend 64

/-- Conditional and compare-and-branch offset (R95). -/
def condBranchOffset (imm19 : BitVec 19) : Word := (imm19 ++ 0b00#2).signExtend 64

/-- Move-wide immediate (R96). -/
def moveWideImm (hw : BitVec 2) (imm16 : BitVec 16) : Word := imm16.setWidth 64 <<< (16 * hw.toNat)

/-! ### Register operands -/

/-- `ShiftReg(v, shift_type, s)` (R98). -/
def shiftReg (v : Word) (kind : ShiftType) (s : BitVec 6) : Word :=
  match kind with
  | .lsl => v <<< s.toNat
  | .lsr => v >>> s.toNat
  | .asr => v.sshiftRight s.toNat
  | .ror => (v >>> s.toNat) ||| (v <<< (64 - s.toNat))

/-- `ExtendReg(v, option)` (R99). -/
def extendReg (v : Word) (option : Extend) : Word :=
  match option with
  | .uxtb => (v.setWidth 8).setWidth 64
  | .uxth => (v.setWidth 16).setWidth 64
  | .uxtw => (v.setWidth 32).setWidth 64
  | .uxtx => v
  | .sxtb => (v.setWidth 8).signExtend 64
  | .sxth => (v.setWidth 16).signExtend 64
  | .sxtw => (v.setWidth 32).signExtend 64
  | .sxtx => v

/-- The extended-register operand `ExtendReg(v, option) << imm3` (R99, R282). -/
def extendedOperand (v : Word) (option : Extend) (imm3 : BitVec 3) : Word :=
  extendReg v option <<< imm3.toNat

/-! ### Declared fields (R104) -/

/-- The "writes" column of R104: from which field write-back writes the destination register. -/
inductive Writes where
  | none | result | memVal
  deriving DecidableEq, Repr

/-- One row of the table of R104, with whether the tag sets the flags (R23). -/
structure Declared where
  rn     : Option Reg
  rm     : Option Reg
  rt     : Option Reg
  dst    : Option Reg
  writes : Writes
  flags  : Bool
  deriving DecidableEq, Repr

/-- A tag that declares nothing: `B`, `B_COND`, `HLT`, `UNKNOWN`. -/
def Declared.nothing : Declared := ⟨none, none, none, none, .none, false⟩

/-- The table of R104 with the flag-setting tags of R23. -/
def declared : Instr → Declared
  | .addI _ _ rn rd       => ⟨some rn, none, none, some rd, .result, false⟩
  | .addsI _ _ rn rd      => ⟨some rn, none, none, some rd, .result, true⟩
  | .subI _ _ rn rd       => ⟨some rn, none, none, some rd, .result, false⟩
  | .cmpI _ _ rn          => ⟨some rn, none, none, none, .none, true⟩
  | .subsI _ _ rn rd      => ⟨some rn, none, none, some rd, .result, true⟩
  | .addSR _ rm _ rn rd   => ⟨some rn, some rm, none, some rd, .result, false⟩
  | .addsSR _ rm _ rn rd  => ⟨some rn, some rm, none, some rd, .result, true⟩
  | .subSR _ rm _ rn rd   => ⟨some rn, some rm, none, some rd, .result, false⟩
  | .cmpSR _ rm _ rn      => ⟨some rn, some rm, none, none, .none, true⟩
  | .subsSR _ rm _ rn rd  => ⟨some rn, some rm, none, some rd, .result, true⟩
  | .addER rm _ _ rn rd   => ⟨some rn, some rm, none, some rd, .result, false⟩
  | .addsER rm _ _ rn rd  => ⟨some rn, some rm, none, some rd, .result, true⟩
  | .subER rm _ _ rn rd   => ⟨some rn, some rm, none, some rd, .result, false⟩
  | .cmpER rm _ _ rn      => ⟨some rn, some rm, none, none, .none, true⟩
  | .subsER rm _ _ rn rd  => ⟨some rn, some rm, none, some rd, .result, true⟩
  | .andSR _ rm _ rn rd   => ⟨some rn, some rm, none, some rd, .result, false⟩
  | .andsSR _ rm _ rn rd  => ⟨some rn, some rm, none, some rd, .result, true⟩
  | .orrSR _ rm _ rn rd   => ⟨some rn, some rm, none, some rd, .result, false⟩
  | .eorSR _ rm _ rn rd   => ⟨some rn, some rm, none, some rd, .result, false⟩
  | .lslI _ rn rd         => ⟨some rn, none, none, some rd, .result, false⟩
  | .lsrI _ rn rd         => ⟨some rn, none, none, some rd, .result, false⟩
  | .movz _ _ rd          => ⟨none, none, none, some rd, .result, false⟩
  | .mul rm rn rd         => ⟨some rn, some rm, none, some rd, .result, false⟩
  | .ldurX _ rn rt        => ⟨some rn, none, none, some rt, .memVal, false⟩
  | .ldurW _ rn rt        => ⟨some rn, none, none, some rt, .memVal, false⟩
  | .ldurh _ rn rt        => ⟨some rn, none, none, some rt, .memVal, false⟩
  | .ldurb _ rn rt        => ⟨some rn, none, none, some rt, .memVal, false⟩
  | .sturX _ rn rt        => ⟨some rn, none, some rt, none, .none, false⟩
  | .sturW _ rn rt        => ⟨some rn, none, some rt, none, .none, false⟩
  | .sturh _ rn rt        => ⟨some rn, none, some rt, none, .none, false⟩
  | .sturb _ rn rt        => ⟨some rn, none, some rt, none, .none, false⟩
  | .b _                  => .nothing
  | .br rn                => ⟨some rn, none, none, none, .none, false⟩
  | .bEQ _                => .nothing
  | .bNE _                => .nothing
  | .bGE _                => .nothing
  | .bLT _                => .nothing
  | .bGT _                => .nothing
  | .bLE _                => .nothing
  | .cbz _ rt             => ⟨none, none, some rt, none, .none, false⟩
  | .cbnz _ rt            => ⟨none, none, some rt, none, .none, false⟩
  | .hlt _                => .nothing

/-- The row of a tag; `UNKNOWN` declares nothing (R104, R342). -/
def Tag.declared : Tag → Declared
  | .instr i => Machine.declared i
  | .unknown => .nothing

/-- `Regs(d)` (R184): the declared source and destination registers, with 31 removed. -/
def Declared.regs (d : Declared) : List Reg :=
  ([d.rn, d.rm, d.rt, d.dst].filterMap id).filter (· != zeroReg)

end Sys2Proof.Machine
end

