-- ==== Sys2Proof/Machine/Ops.lean ====
section
/-! DEFINITION. The named operations over the state: tables held by key, registers (spec/10_state.md R21, R22), the
external memory (spec/20_memory.md R61 to R67), the latches and control signals, raising and taking a fault
(spec/60_exceptions.md R351) and reset (spec/70_reset_and_hazards.md R370). -/

namespace Sys2Proof.Machine

/-- What a stage or a cycle answers. -/
abbrev Out := Host.Outcome State Fault Refusal

/-! ### Tables held by key -/

/-- The value listed for a key. -/
def tableFind {β : Type} : Table β → Nat → Option β
  | [], _ => none
  | (k, v) :: t, a => if a = k then some v else tableFind t a

/-- The table with `v` listed for `a`, keys kept rising. -/
def tableInsert {β : Type} : Table β → Nat → β → Table β
  | [], a, v => [(a, v)]
  | (k, w) :: t, a, v =>
    if a = k then (a, v) :: t
    else if a < k then (a, v) :: (k, w) :: t
    else (k, w) :: tableInsert t a v

/-- The table with nothing listed for `a`. -/
def tableErase {β : Type} (t : Table β) (a : Nat) : Table β := t.filter (fun e => e.1 != a)

/-- The value of a key in a table where an unlisted key reads as `d`. -/
def tableGet {β : Type} (d : β) (t : Table β) (a : Nat) : β := (tableFind t a).getD d

/-- Such a table with `v` at `a`: the default is never listed. -/
def tablePut {β : Type} [DecidableEq β] (d : β) (t : Table β) (a : Nat) (v : β) : Table β :=
  if v = d then tableErase t a else tableInsert t a v

/-- Keys strictly rising, all above `lo` where it is given. -/
def tableSortedFrom {β : Type} : Option Nat → Table β → Bool
  | _, [] => true
  | none, (k, _) :: t => tableSortedFrom (some k) t
  | some lo, (k, _) :: t => decide (lo < k) && tableSortedFrom (some k) t

/-- The canonical form of a table's keys. -/
def tableSorted {β : Type} (t : Table β) : Bool := tableSortedFrom none t

/-! ### Registers -/

/-- `x[i]` (R21): index 31 reads as 0. -/
def State.reg (s : State) (r : Reg) : Word :=
  if h : r.toNat < 31 then s.x[r.toNat] else 0#64

/-- `x[i] <- v` (R22): a write of index 31 has no effect. -/
def State.setReg (s : State) (r : Reg) (v : Word) : State :=
  if h : r.toNat < 31 then { s with x := s.x.set r.toNat v } else s

/-- `Z <- zf; N <- nf` (R23, R134). -/
def State.setFlags (s : State) (zf nf : Bool) : State := { s with z := zf, n := nf }

/-! ### Memory -/

/-- The canonical form of the memory: addresses strictly rising, each below `2^64` (R60). An unlisted address has no
listed value, so no entry can equal it. -/
def Memory.wf (m : Memory) : Bool := tableSorted m && m.all (fun e => decide (e.1 < 2 ^ 64))

/-- What an unlisted address reads as: the launch's free value (R76). -/
def unlistedByte (a : Nat) : Byte := Config.initByte a

/-- `byte(b)` of R62. -/
def readByte (m : Memory) (a : Word) : Byte := (tableFind m a.toNat).getD (unlistedByte a.toNat)

/-- Writes one byte. -/
def writeByte (m : Memory) (a : Word) (v : Byte) : Memory := tableInsert m a.toNat v

/-- The aligned word address of a byte address, `b & ~3` (R62). -/
def wordAddr (a : Word) : Word := a &&& ~~~(3#64)

/-- `read32` (R61): the word that holds the address, its lane 0 in bits 7:0 (R62). -/
def read32 (m : Memory) (a : Word) : InstWord :=
  let w := wordAddr a
  wordOfBytes (readByte m w) (readByte m (w + 1#64)) (readByte m (w + 2#64)) (readByte m (w + 3#64))

/-- `MemRead(addr, n)` (R63): byte `k` of the value is `byte(addr + k)`, addresses modulo `2^64`. -/
def memRead (m : Memory) (a : Word) : Nat → Word
  | 0 => 0#64
  | n + 1 => (readByte m a).setWidth 64 ||| (memRead m (a + 1#64) n <<< 8)

/-- `MemWrite(addr, n, v)` (R64): `byte(addr + k) <- v[8k+7:8k]` for `k < n`, and no other byte. -/
def memWrite (m : Memory) (a : Word) (v : Word) : Nat → Memory
  | 0 => m
  | n + 1 => memWrite (writeByte m a (v.setWidth 8)) (a + 1#64) (v >>> 8) n

/-- `write32` (R61): the four lanes of one aligned word. -/
def write32 (m : Memory) (a : Word) (v : InstWord) : Memory := memWrite m (wordAddr a) (v.setWidth 64) 4

/-- The word of byte address `a` is in `MEM_ADMIT` (R67). -/
def admitted (c : Config) (a : Word) : Bool :=
  c.memAdmit.any fun r => decide (r.first ≤ (wordAddr a).toNat) && decide ((wordAddr a).toNat ≤ r.last)

/-- Every word of bytes `a .. a+n-1` is in `MEM_ADMIT` (R67, R136). -/
def accessAdmitted (c : Config) (a : Word) : Nat → Bool
  | 0 => true
  | n + 1 => admitted c a && accessAdmitted c (a + 1#64) n

/-- The memory with a new content. -/
def State.setMem (s : State) (m : Memory) : State := { s with mem := m }

/-! ### Latches, control signals, caches, predictor, statistics -/

def State.putIfde (s : State) (l : Latch) : State := { s with cur := { s.cur with ifde := l } }
def State.putDeex (s : State) (l : Latch) : State := { s with cur := { s.cur with deex := l } }
def State.putExmem (s : State) (l : Latch) : State := { s with cur := { s.cur with exmem := l } }
def State.putMemwb (s : State) (l : Latch) : State := { s with cur := { s.cur with memwb := l } }

/-- The sequencer moves to a stage (R131). -/
def State.atStage (s : State) (p : Stage) : State := { s with stage := p }

def State.setNextPc (s : State) (a : Word) : State := { s with ctl := { s.ctl with nextPc := some a } }

/-- The one-shot signals at the start of a cycle: each is 0 or has no value (R29). -/
def State.startCycle (s : State) : State := { s with ctl := Control.cleared }

/-- The load-use stall signal (R145). -/
def State.raiseLoadStall (s : State) : State := { s with ctl := { s.ctl with loadStall := true } }

/-- The data-cache stall signal; `UPDATE_EXECUTE_WITH_SAVED_OP` equals it (R29, R137). -/
def State.raiseMemStall (s : State) : State :=
  { s with ctl := { s.ctl with memStall := true, updateExecuteWithSavedOp := true } }

/-- What execute reports of a branch (R140): the squash signal, the resolved next PC and the predictor update. -/
def State.putResolved (s : State) (squash : Bool) (resolved : Word) (u : PredUpdate) : State :=
  { s with ctl := { s.ctl with clearDecode := squash, resolved := some resolved, upd := some u } }

def State.setIc (s : State) (c : Cache) : State := { s with ic := c }
def State.setDc (s : State) (c : Cache) : State := { s with dc := c }
def State.setHalt (s : State) : State := { s with halt := true }
def State.setRunStop (s : State) : State := { s with runStop := true }

/-- `RETIRED <- RETIRED + 1` (R134, R149), modulo `2^64` (R358). -/
def State.countRetired (s : State) : State := { s with retired := s.retired + 1#64 }

/-- `SQUASHES <- SQUASHES + 1` (R142, R225), modulo `2^64` (R358). -/
def State.countSquash (s : State) : State := { s with squashes := s.squashes + 1#64 }

/-! ### Faults and reset -/

/-- `raise Fault(reason)` inside a cycle (R10, R131): the record is set, and the sequencer runs nothing more of the
cycle. -/
def raise (r : Fault) (s : State) : Out := .next { s with fault := some r }

/-- TAKING A FAULT (R351): the state after the cycle is the state at its start with the record set, and nothing else
changes. -/
def takeFault (start : State) (r : Fault) : State := { start with fault := some r }

/-- A cycle that changes nothing: stopped or faulted (R132). -/
def State.stopped (s : State) : Bool := s.runStop || s.fault.isSome

/-- Reset (R370), the one way out of the halted and the faulted state (R351, R362): every component at its reset value,
the configuration and the external memory unchanged. There is no other return from a fault (R356). -/
def resetMachine (s : State) : State := State.initial s.cfg s.mem

/-- Initialisation (R371): a configuration that breaks R8 produces no state. -/
def initialise (c : Config) (image : Memory) : Option State :=
  if c.valid then some (State.initial c image) else none

/-- The next part of a cycle, unless a fault has ended it (R131). -/
def andThen (o : Out) (k : State → Out) : Out :=
  match o with
  | .next s => if s.fault.isSome then .next s else k s
  | .fault f => .fault f
  | .refused r => .refused r

end Sys2Proof.Machine
end

