-- ==== Sys2Proof/Machine/Cache.lean ====
section
/-! DEFINITION. The set-associative LRU caches and their fill engines (spec/43_cache.md). -/

namespace Sys2Proof.Machine

/-! ### Address decomposition (R241)

DESIGN CHOICE, unsafe (notes/assumptions/17.md): in a geometry whose block size times set count exceeds `2^64`, which R8
admits, the slices of R241 leave the 64-bit address, and their bits above bit 63 read 0. -/

/-- `blk_C(a)`. -/
def blockOf (g : CacheGeometry) (a : Nat) : Nat := a / g.block * g.block

/-- `set_C(a)`; a bit above bit 63 reads 0 (log entry 17). -/
def setIndexOf (g : CacheGeometry) (a : Nat) : Nat := a / g.block % g.sets

/-- `tag_C(a)`; with no bit of the address left for it, it is 0 (log entry 17). -/
def tagOf (g : CacheGeometry) (a : Nat) : Nat := a / g.block / g.sets

/-! ### Ways -/

/-- A set nothing has been installed in (R34). -/
def emptySet (g : CacheGeometry) : List Way := List.replicate g.ways Way.invalid

/-- The ways of set `i`. -/
def setWays (g : CacheGeometry) (c : Cache) (i : Nat) : List Way := tableGet (emptySet g) c.sets i

/-- The first way of a set that satisfies `p`. -/
def findWay (p : Way → Bool) : List Way → Option Nat
  | [] => none
  | w :: rest => if p w then some 0 else (findWay p rest).map (· + 1)

/-- The way of a set that holds a tag (R243). -/
def lookup (t : Nat) (ws : List Way) : Option Nat := findWay (fun w => w.valid && w.tag == t) ws

/-- `a_old` of R244: the way's age if it is valid, else `C_WAYS`. -/
def oldAge (g : CacheGeometry) (ws : List Way) (w : Nat) : Nat :=
  match ws[w]? with
  | some v => if v.valid then v.age else g.ways
  | none => g.ways

/-- `Touch(C, s, w)` (R244) on the ways of one set, `w` given the tag `t`: the younger valid ways age by one and way `w`
becomes the most recently used. -/
def touch (g : CacheGeometry) (t : Nat) (ws : List Way) (w : Nat) : List Way :=
  ws.mapIdx fun j v =>
    if j = w then ⟨true, t, 0⟩
    else if v.valid && decide (v.age < oldAge g ws w) then { v with age := v.age + 1 }
    else v

/-- The largest age of a set's ways. -/
def maxAge : List Way → Nat
  | [] => 0
  | w :: rest => max w.age (maxAge rest)

/-- The victim of R248: the lowest-numbered invalid way, else the way with the largest age. -/
def victim (ws : List Way) : Nat :=
  match findWay (fun w => !w.valid) ws with
  | some w => w
  | none => (findWay (fun w => w.age == maxAge ws) ws).getD 0

/-- The cache with the ways of set `i` replaced. -/
def Cache.putWays (g : CacheGeometry) (c : Cache) (i : Nat) (ws : List Way) : Cache :=
  { c with sets := tablePut (emptySet g) c.sets i ws }

/-- `Install(C, b)` (R248). The fill engine is left to the caller. -/
def install (g : CacheGeometry) (c : Cache) (b : Nat) : Cache :=
  let i := setIndexOf g b
  let ws := setWays g c i
  c.putWays g i (touch g (tagOf g b) ws (victim ws))

/-! ### Access and fill -/

/-- The two instances differ only in what an access does to a fill of another block (R249, R250). -/
inductive CacheKind where
  | instruction | data
  deriving DecidableEq, Repr

/-- The lookup of R243 with no fill in the way: a hit touches the way (R244), a miss with penalty 0 installs the block
at once and hits (R251), any other miss starts the fill engine and stalls (R245). The answer is the cache and whether
the access hit. -/
def cacheLookup (g : CacheGeometry) (c : Cache) (a : Nat) : Cache × Bool :=
  let i := setIndexOf g a
  let ws := setWays g c i
  match lookup (tagOf g a) ws with
  | some w => (c.putWays g i (touch g (tagOf g a) ws w), true)
  | none =>
    if g.penalty = 0 then (install g c (blockOf g a), true)
    else ({ c with fill := some ⟨blockOf g a, g.penalty⟩ }, false)

/-- `CacheAccess(C, a)` (R243): `true` for `HIT`, `false` for `STALL`. -/
def cacheAccess (kind : CacheKind) (g : CacheGeometry) (c : Cache) (a : Word) : Cache × Bool :=
  match c.fill with
  | none => cacheLookup g c a.toNat
  | some f =>
    if f.block = blockOf g a.toNat then (c, false)
    else match kind with
      | .instruction => cacheLookup g { c with fill := none } a.toNat
      | .data => (c, false)

/-- `TickFill(C)` (R247). -/
def tickFill (g : CacheGeometry) (c : Cache) : Cache :=
  match c.fill with
  | none => c
  | some f =>
    if f.remaining - 1 = 0 then { install g c f.block with fill := none }
    else { c with fill := some ⟨f.block, f.remaining - 1⟩ }

/-- Both fill engines advance at the start of every cycle (R133). -/
def tickFills (s : State) : State := (s.setIc (tickFill s.cfg.ic s.ic)).setDc (tickFill s.cfg.dc s.dc)

end Sys2Proof.Machine
end

