-- ==== Sys2Proof/Machine/Hazards.lean ====
section
/-! DEFINITION. The load-use hazard detector and the operand and flag forwarding network
(spec/41_hazards_forwarding.md). -/

namespace Sys2Proof.Machine

/-- `LoadUse(d, e)` (R181): `e`, the micro-op execute processes this cycle, is a load whose register `d` names. A load
is the tag whose destination is written from the loaded value (R104). -/
def loadUse (d : Declared) (e : Latch) : Bool :=
  match e with
  | none => false
  | some op =>
    match op.tag.declared.writes, op.tag.declared.dst with
    | .memVal, some rt => rt != zeroReg && d.regs.contains rt
    | _, _ => false

/-- The micro-op in a latch writes register `r` (R186). -/
def writesReg (l : Latch) (r : Reg) : Bool :=
  match l with
  | none => false
  | some op => op.tag.declared.writes != .none && op.tag.declared.dst == some r

/-- The value a forwarding source supplies (R188): `result`, or `mem_val` for a load. -/
def supplied (op : MicroOp) : Word :=
  match op.tag.declared.writes with
  | .memVal => op.memVal
  | _ => op.result

/-- Forwarding from MEM→WB, source (b) of R185. -/
def fwdFromMemwb (l : Latch) (r : Reg) (v : Word) : Word :=
  match l with
  | none => v
  | some b => if writesReg (some b) r then supplied b else v

/-- `FwdVal(i, v)` (R186): source (a), EX→MEM, has priority; a load there is never a source (R189). -/
def fwdVal (L : Latches) (r : Reg) (v : Word) : Except Fault Word :=
  if r = zeroReg then .ok v
  else match L.exmem with
    | none => .ok (fwdFromMemwb L.memwb r v)
    | some a =>
      if writesReg (some a) r then
        (match a.tag.declared.writes with
          | .memVal => .error .forwardFromLoad
          | _ => .ok a.result)
      else .ok (fwdFromMemwb L.memwb r v)

/-- A declared source field is forwarded; an undeclared one is not read (R187, R104). -/
def fwdField (L : Latches) (r : Option Reg) (v : Word) : Except Fault Word :=
  match r with
  | none => .ok v
  | some r => fwdVal L r v

/-- `Forward(op)` (R186, R187). The only fault is `ForwardFromLoad`. -/
def forward (d : Declared) (L : Latches) (op : MicroOp) : Except Fault MicroOp :=
  match fwdField L d.rn op.rnVal, fwdField L d.rm op.rmVal, fwdField L d.rt op.rtVal with
  | .ok a, .ok b, .ok c => .ok { op with rnVal := a, rmVal := b, rtVal := c }
  | _, _, _ => .error .forwardFromLoad

/-- `Refresh(op)` under freeze (R191). -/
def refresh (L : Latches) (l : Latch) : Except Fault Latch :=
  match l with
  | none => .ok none
  | some op =>
    match forward op.tag.declared L op with
    | .ok op' => .ok (some op')
    | .error f => .error f

/-- The flag-setting micro-op in EX→MEM, if there is one (R190). -/
def flagSource (l : Latch) : Option MicroOp :=
  match l with
  | none => none
  | some a => if a.tag.declared.flags then some a else none

/-- The `Z` half of `BranchFlags()` (R190). -/
def branchZ (s : State) : Bool :=
  match flagSource s.prev.exmem with
  | some a => a.fz
  | none => s.z

/-- The `N` half of `BranchFlags()` (R190). -/
def branchN (s : State) : Bool :=
  match flagSource s.prev.exmem with
  | some a => a.fn
  | none => s.n

end Sys2Proof.Machine
end

