-- ==== Sys2Proof/Machine/Predictor.lean ====
section
/-! DEFINITION. The gshare branch-prediction unit (spec/42_branch_predictor.md). -/

namespace Sys2Proof.Machine

/-- `PhtIndex(pc, ghr) = pc[H+1:2] XOR ghr` (R211). DESIGN CHOICE, unsafe (notes/assumptions/17.md): for `H` above 62 the
slice leaves the word, and its bits above bit 63 read 0. -/
def phtIndex (c : Config) (pc : Word) (ghr : Nat) : Nat := (pc.toNat / 4 % 2 ^ c.ghrBits) ^^^ ghr

/-- `BtbIndex(pc) = pc[BTB_BITS+1:2]` (R212). DESIGN CHOICE, unsafe (notes/assumptions/17.md): for `BTB_BITS` above 62 the
slice leaves the word, and its bits above bit 63 read 0. -/
def btbIndex (c : Config) (pc : Word) : Nat := pc.toNat / 4 % 2 ^ c.btbBits

/-- A counter of the PHT; an unlisted one is 0 (R32). -/
def Predictor.counter (p : Predictor) (i : Nat) : Counter := tableGet 0#2 p.pht i

/-- An entry of the BTB; an unlisted one is invalid (R33). -/
def Predictor.entry (p : Predictor) (i : Nat) : BtbEntry := tableGet BtbEntry.invalid p.btb i

/-- What `Predict` returns. -/
structure Prediction where
  next    : Word
  btbMiss : Bool
  idx     : Nat
  deriving DecidableEq, Repr

/-- `Predict(pc)` (R213): the word at `pc` plays no part. -/
def predict (c : Config) (p : Predictor) (pc : Word) : Prediction :=
  let idx := phtIndex c pc p.ghr
  let e := p.entry (btbIndex c pc)
  if e.valid && e.tag == pc then
    if !e.cond || decide (2 ≤ (p.counter idx).toNat) then ⟨e.target, false, idx⟩
    else ⟨pc + 4#64, false, idx⟩
  else ⟨pc + 4#64, true, idx⟩

/-- The saturating step of a counter (R217). -/
def bump (k : Counter) (taken : Bool) : Counter :=
  if taken then (if k = 3#2 then 3#2 else k + 1#2) else (if k = 0#2 then 0#2 else k - 1#2)

/-- The history with an outcome shifted in (R218). -/
def shiftHistory (c : Config) (ghr : Nat) (taken : Bool) : Nat := (2 * ghr + taken.toNat) % 2 ^ c.ghrBits

/-- `Update(op)` (R220) for a branch of the conditional (`cond = true`) or unconditional class (R216). -/
def predUpdate (c : Config) (p : Predictor) (cond : Bool) (op : MicroOp) : PredUpdate where
  btbIdx   := btbIndex c op.pc
  btbEntry := ⟨true, op.pc, op.target, cond⟩
  pht      := if cond then some (op.phtIdx, bump (p.counter op.phtIdx) op.taken) else none
  ghr      := if cond then some (shiftHistory c p.ghr op.taken) else none

/-- The update's writes, applied at the end of the cycle (R149, R220). -/
def Predictor.apply (p : Predictor) (u : PredUpdate) : Predictor where
  ghr := u.ghr.getD p.ghr
  pht := match u.pht with
    | some (i, k) => tablePut 0#2 p.pht i k
    | none => p.pht
  btb := tablePut BtbEntry.invalid p.btb u.btbIdx u.btbEntry

end Sys2Proof.Machine
end

