-- ==== Sys2Proof/Machine/Stages.lean ====
section
/-! DEFINITION. What the decode, execute, memory and write-back stages do with a micro-op, as operations the meanings
share (spec/40_pipeline_engine.md R134 to R145). A meaning names what its instruction does in each of the four stages;
`inStage` runs the one the sequencer stands at, on the micro-op of that stage's input latch. The fetch stage does not
look at the word it fetches (R213), so no instruction has a part in it; it is in `Machine/Pipeline.lean`. -/

namespace Sys2Proof.Machine

/-- What an instruction does in one stage, given its micro-op. -/
abbrev StageFn := MicroOp → State → Out

/-- The stage function on a latch; a bubble has no effect (R26). -/
def onLatch (l : Latch) (f : StageFn) (s : State) : Out :=
  match l with
  | none => .next s
  | some op => f op s

/-- The stage the sequencer stands at, on its input latch (R131, R152). -/
def inStage (de ex mem wb : StageFn) (s : State) : Out :=
  match s.stage with
  | .wb    => onLatch s.prev.memwb wb s
  | .mem   => onLatch s.prev.exmem mem s
  | .ex    => onLatch s.prev.deex ex s
  | .de    => onLatch s.prev.ifde de s
  | .fetch => .next s

/-! ### Decode (R143 to R145) -/

/-- The value decode reads for a source field; an undeclared one is not read (R104). -/
def readSource (s : State) (r : Option Reg) : Word :=
  match r with
  | none => 0#64
  | some r => s.reg r

/-- The micro-op with its tag, its decoded fields and its source values (R143). -/
def decodedOp (t : Tag) (s : State) (op : MicroOp) : MicroOp :=
  { op with
    tag := t
    rnVal := readSource s t.declared.rn
    rmVal := readSource s t.declared.rm
    rtVal := readSource s t.declared.rt }

/-- `DE(op)` of R143: a load-use hazard raises `LOAD_STALL` (R145), otherwise the micro-op passes into DE→EX. -/
def deStage (t : Tag) : StageFn := fun op s =>
  if loadUse t.declared s.prev.deex then .next s.raiseLoadStall
  else .next (s.putDeex (some (decodedOp t s op)))

/-- Decode of `HLT` (R144, R340): `HALT` is set when the micro-op passes. -/
def deHalt (t : Tag) : StageFn := fun op s =>
  if loadUse t.declared s.prev.deex then .next s.raiseLoadStall
  else .next (s.putDeex (some (decodedOp t s op))).setHalt

/-! ### Execute (R140, R141) -/

/-- `EX(op)` of R140 up to the execute function: the operands are forwarded, then `f` computes the micro-op. -/
def exStage (d : Declared) (f : MicroOp → MicroOp) : StageFn := fun op s =>
  match forward d s.prev op with
  | .error r => raise r s
  | .ok op => .next (s.putExmem (some (f op)))

/-- The micro-op with an ALU result (R270). -/
def withResult (r : Word) (op : MicroOp) : MicroOp := { op with result := r }

/-- The micro-op with an ALU result and its flags (R270, R297). -/
def withResultFlags (r : Word) (op : MicroOp) : MicroOp :=
  { op with result := r, fz := flagZ r, fn := flagN r }

/-- Execute of an ALU instruction that sets no flags: `f` on the two forwarded operands (R270). -/
def exAlu (d : Declared) (f : Word → Word → Word) : StageFn :=
  exStage d fun op => withResult (f op.rnVal op.rmVal) op

/-- Execute of an ALU instruction that sets the flags (R270). -/
def exAluFlags (d : Declared) (f : Word → Word → Word) : StageFn :=
  exStage d fun op => withResultFlags (f op.rnVal op.rmVal) op

/-- Execute of a load: the effective address (R300). -/
def exLoad (d : Declared) (imm9 : BitVec 9) : StageFn :=
  exStage d fun op => { op with memAddr := op.rnVal + loadStoreOffset imm9 }

/-- Execute of a store: the effective address and the store data (R300). -/
def exStore (d : Declared) (imm9 : BitVec 9) : StageFn :=
  exStage d fun op => { op with memAddr := op.rnVal + loadStoreOffset imm9, memVal := op.rtVal }

/-- Execute that passes the micro-op unchanged (R341, R342). -/
def exPass (d : Declared) : StageFn := exStage d id

/-- The resolved next PC (R222). -/
def resolvedPc (op : MicroOp) : Word := if op.taken then op.target else op.pc + 4#64

/-- The two low bits of an instruction address are 0 (R65). -/
def aligned4 (a : Word) : Bool := a.toNat % 4 == 0

/-- Execute of a branch of the conditional or unconditional class (R140, R216, R320): the operands are forwarded, the
target and the direction computed, a misaligned resolved PC faults, and otherwise the squash signal is the mismatch of
the recorded prediction (R223) and the predictor update is prepared (R220). -/
def exBranch (d : Declared) (cond : Bool) (target : MicroOp → Word) (taken : State → MicroOp → Bool) : StageFn :=
  fun op s =>
    match forward d s.prev op with
    | .error r => raise r s
    | .ok op =>
      let op := { op with target := target op, taken := taken s op }
      if aligned4 (resolvedPc op) then
        .next ((s.putExmem (some op)).putResolved (op.predPc != resolvedPc op) (resolvedPc op)
          (predUpdate s.cfg s.bp cond op))
      else raise .misalignedTarget s

/-! ### Memory (R135 to R138) -/

/-- Pass-through of a micro-op that is not a load or store (R138). -/
def memPass : StageFn := fun op s => .next (s.putMemwb (some op))

/-- `MemAccess(op)` (R136): the admission check, then the data cache; a stall leaves a bubble and raises `MEM_STALL`
(R137), a hit performs the access. -/
def memAccess (width : Nat) (access : MicroOp → State → State) : StageFn := fun op s =>
  if accessAdmitted s.cfg op.memAddr width then
    let r := cacheAccess .data s.cfg.dc s.dc op.memAddr
    if r.2 then .next (access op (s.setDc r.1))
    else .next ((s.setDc r.1).putMemwb none).raiseMemStall
  else raise .dataNotAdmitted s

/-- A load of `width` bytes, zero-extended (R300 to R304). -/
def memLoad (width : Nat) : StageFn :=
  memAccess width fun op s => s.putMemwb (some { op with memVal := memRead s.mem op.memAddr width })

/-- A store of the low `width` bytes of the store data (R300, R305 to R308). -/
def memStore (width : Nat) : StageFn :=
  memAccess width fun op s => (s.setMem (memWrite s.mem op.memAddr op.memVal width)).putMemwb (some op)

/-! ### Write-back (R134) -/

/-- Commit of a tag that writes a register from `result`. -/
def wbResult (rd : Reg) : StageFn := fun op s => .next (s.setReg rd op.result).countRetired

/-- Commit of a tag that sets the flags and writes a register from `result`. -/
def wbResultFlags (rd : Reg) : StageFn := fun op s =>
  .next ((s.setFlags op.fz op.fn).setReg rd op.result).countRetired

/-- Commit of a compare: the flags only. -/
def wbFlags : StageFn := fun op s => .next (s.setFlags op.fz op.fn).countRetired

/-- Commit of a load: the register from the loaded value. -/
def wbLoaded (rt : Reg) : StageFn := fun op s => .next (s.setReg rt op.memVal).countRetired

/-- Commit of a tag that writes nothing. -/
def wbNothing : StageFn := fun _ s => .next s.countRetired

/-- Commit of `HLT` (R341): the run-stop condition. -/
def wbHalt : StageFn := fun _ s => .next s.setRunStop.countRetired

/-! ### Shapes of whole instructions -/

/-- An ALU instruction that sets no flags. -/
def aluInstr (i : Instr) (rd : Reg) (f : Word → Word → Word) : State → Out :=
  inStage (deStage (.instr i)) (exAlu (declared i) f) memPass (wbResult rd)

/-- An ALU instruction that sets the flags. -/
def aluFlagsInstr (i : Instr) (rd : Reg) (f : Word → Word → Word) : State → Out :=
  inStage (deStage (.instr i)) (exAluFlags (declared i) f) memPass (wbResultFlags rd)

/-- A compare. -/
def compareInstr (i : Instr) (f : Word → Word → Word) : State → Out :=
  inStage (deStage (.instr i)) (exAluFlags (declared i) f) memPass wbFlags

/-- A load of `width` bytes. -/
def loadInstr (i : Instr) (width : Nat) (imm9 : BitVec 9) (rt : Reg) : State → Out :=
  inStage (deStage (.instr i)) (exLoad (declared i) imm9) (memLoad width) (wbLoaded rt)

/-- A store of `width` bytes. -/
def storeInstr (i : Instr) (width : Nat) (imm9 : BitVec 9) : State → Out :=
  inStage (deStage (.instr i)) (exStore (declared i) imm9) (memStore width) wbNothing

/-- A branch (R320, R332). -/
def branchInstr (i : Instr) (cond : Bool) (target : MicroOp → Word) (taken : State → MicroOp → Bool) : State → Out :=
  inStage (deStage (.instr i)) (exBranch (declared i) cond target taken) memPass wbNothing

end Sys2Proof.Machine
end

