-- ==== Sys2Proof/Machine/AddSubImm.lean ====
section
/-! DEFINITION. Add and subtract, immediate (spec/44_alu.md R271 to R275; format ADDSUB_IMM). -/

namespace Sys2Proof.Machine

/-- `ADD_I` (R271): `result <- a + imm`. -/
def execAddI (sh : BitVec 1) (imm12 : BitVec 12) (rn rd : Reg) (s : State) : Out :=
  aluInstr (.addI sh imm12 rn rd) rd (fun a _ => a + addSubImm sh imm12) s

/-- `ADDS_I` (R272): `result <- a + imm`, with the flags. -/
def execAddsI (sh : BitVec 1) (imm12 : BitVec 12) (rn rd : Reg) (s : State) : Out :=
  aluFlagsInstr (.addsI sh imm12 rn rd) rd (fun a _ => a + addSubImm sh imm12) s

/-- `SUB_I` (R273): `result <- a - imm`. -/
def execSubI (sh : BitVec 1) (imm12 : BitVec 12) (rn rd : Reg) (s : State) : Out :=
  aluInstr (.subI sh imm12 rn rd) rd (fun a _ => a - addSubImm sh imm12) s

/-- `CMP_I` (R275): the flags of `a - imm`; no register. -/
def execCmpI (sh : BitVec 1) (imm12 : BitVec 12) (rn : Reg) (s : State) : Out :=
  compareInstr (.cmpI sh imm12 rn) (fun a _ => a - addSubImm sh imm12) s

/-- `SUBS_I` (R274): `result <- a - imm`, with the flags. -/
def execSubsI (sh : BitVec 1) (imm12 : BitVec 12) (rn rd : Reg) (s : State) : Out :=
  aluFlagsInstr (.subsI sh imm12 rn rd) rd (fun a _ => a - addSubImm sh imm12) s

end Sys2Proof.Machine
end

