-- ==== Sys2Proof/Machine/AddSubReg.lean ====
section
/-! DEFINITION. Add and subtract, shifted register (spec/44_alu.md R276 to R281; format ADDSUB_SR) and extended register
(R282 to R287; format ADDSUB_ER). `b'` is the shifted or extended operand. -/

namespace Sys2Proof.Machine

/-- `ADD_SR` (R277): `result <- a + b'`. -/
def execAddSR (shift : ShiftType) (rm : Reg) (imm6 : BitVec 6) (rn rd : Reg) (s : State) : Out :=
  aluInstr (.addSR shift rm imm6 rn rd) rd (fun a b => a + shiftReg b shift imm6) s

/-- `ADDS_SR` (R278): `result <- a + b'`, with the flags. -/
def execAddsSR (shift : ShiftType) (rm : Reg) (imm6 : BitVec 6) (rn rd : Reg) (s : State) : Out :=
  aluFlagsInstr (.addsSR shift rm imm6 rn rd) rd (fun a b => a + shiftReg b shift imm6) s

/-- `SUB_SR` (R279): `result <- a - b'`. -/
def execSubSR (shift : ShiftType) (rm : Reg) (imm6 : BitVec 6) (rn rd : Reg) (s : State) : Out :=
  aluInstr (.subSR shift rm imm6 rn rd) rd (fun a b => a - shiftReg b shift imm6) s

/-- `CMP_SR` (R281): the flags of `a - b'`; no register. -/
def execCmpSR (shift : ShiftType) (rm : Reg) (imm6 : BitVec 6) (rn : Reg) (s : State) : Out :=
  compareInstr (.cmpSR shift rm imm6 rn) (fun a b => a - shiftReg b shift imm6) s

/-- `SUBS_SR` (R280): `result <- a - b'`, with the flags. -/
def execSubsSR (shift : ShiftType) (rm : Reg) (imm6 : BitVec 6) (rn rd : Reg) (s : State) : Out :=
  aluFlagsInstr (.subsSR shift rm imm6 rn rd) rd (fun a b => a - shiftReg b shift imm6) s

/-- `ADD_ER` (R283): `result <- a + b'`. -/
def execAddER (rm : Reg) (option : Extend) (imm3 : BitVec 3) (rn rd : Reg) (s : State) : Out :=
  aluInstr (.addER rm option imm3 rn rd) rd (fun a b => a + extendedOperand b option imm3) s

/-- `ADDS_ER` (R284): `result <- a + b'`, with the flags. -/
def execAddsER (rm : Reg) (option : Extend) (imm3 : BitVec 3) (rn rd : Reg) (s : State) : Out :=
  aluFlagsInstr (.addsER rm option imm3 rn rd) rd (fun a b => a + extendedOperand b option imm3) s

/-- `SUB_ER` (R285): `result <- a - b'`. -/
def execSubER (rm : Reg) (option : Extend) (imm3 : BitVec 3) (rn rd : Reg) (s : State) : Out :=
  aluInstr (.subER rm option imm3 rn rd) rd (fun a b => a - extendedOperand b option imm3) s

/-- `CMP_ER` (R287): the flags of `a - b'`; no register. -/
def execCmpER (rm : Reg) (option : Extend) (imm3 : BitVec 3) (rn : Reg) (s : State) : Out :=
  compareInstr (.cmpER rm option imm3 rn) (fun a b => a - extendedOperand b option imm3) s

/-- `SUBS_ER` (R286): `result <- a - b'`, with the flags. -/
def execSubsER (rm : Reg) (option : Extend) (imm3 : BitVec 3) (rn rd : Reg) (s : State) : Out :=
  aluFlagsInstr (.subsER rm option imm3 rn rd) rd (fun a b => a - extendedOperand b option imm3) s

end Sys2Proof.Machine
end

