-- ==== Sys2Proof/Machine/Branch.lean ====
section
/-! DEFINITION. Branches (spec/46_branch.md R320 to R333; formats B, BR, BCOND, CB). -/

namespace Sys2Proof.Machine

/-- `B` (R321): always taken, to `pc + imm`. -/
def execB (imm26 : BitVec 26) (s : State) : Out :=
  branchInstr (.b imm26) false (fun op => op.pc + branchOffset imm26) (fun _ _ => true) s

/-- `BR` (R322): always taken, to the forwarded `rn_val`. -/
def execBr (rn : Reg) (s : State) : Out :=
  branchInstr (.br rn) false (fun op => op.rnVal) (fun _ _ => true) s

/-- `B.EQ` (R324, R323): taken when the condition holds on the flags of `BranchFlags()`. -/
def execBEQ (imm19 : BitVec 19) (s : State) : Out :=
  branchInstr (.bEQ imm19) true (fun op => op.pc + condBranchOffset imm19)
    (fun s _ => condHolds .eq (branchZ s) (branchN s)) s

/-- `B.NE` (R325, R323): taken when the condition holds on the flags of `BranchFlags()`. -/
def execBNE (imm19 : BitVec 19) (s : State) : Out :=
  branchInstr (.bNE imm19) true (fun op => op.pc + condBranchOffset imm19)
    (fun s _ => condHolds .ne (branchZ s) (branchN s)) s

/-- `B.GE` (R326, R323): taken when the condition holds on the flags of `BranchFlags()`. -/
def execBGE (imm19 : BitVec 19) (s : State) : Out :=
  branchInstr (.bGE imm19) true (fun op => op.pc + condBranchOffset imm19)
    (fun s _ => condHolds .ge (branchZ s) (branchN s)) s

/-- `B.LT` (R327, R323): taken when the condition holds on the flags of `BranchFlags()`. -/
def execBLT (imm19 : BitVec 19) (s : State) : Out :=
  branchInstr (.bLT imm19) true (fun op => op.pc + condBranchOffset imm19)
    (fun s _ => condHolds .lt (branchZ s) (branchN s)) s

/-- `B.GT` (R328, R323): taken when the condition holds on the flags of `BranchFlags()`. -/
def execBGT (imm19 : BitVec 19) (s : State) : Out :=
  branchInstr (.bGT imm19) true (fun op => op.pc + condBranchOffset imm19)
    (fun s _ => condHolds .gt (branchZ s) (branchN s)) s

/-- `B.LE` (R329, R323): taken when the condition holds on the flags of `BranchFlags()`. -/
def execBLE (imm19 : BitVec 19) (s : State) : Out :=
  branchInstr (.bLE imm19) true (fun op => op.pc + condBranchOffset imm19)
    (fun s _ => condHolds .le (branchZ s) (branchN s)) s

/-- `CBZ` (R330): taken when `rt_val == 0`. -/
def execCbz (imm19 : BitVec 19) (rt : Reg) (s : State) : Out :=
  branchInstr (.cbz imm19 rt) true (fun op => op.pc + condBranchOffset imm19) (fun _ op => op.rtVal == 0#64) s

/-- `CBNZ` (R331): taken when `rt_val != 0`. -/
def execCbnz (imm19 : BitVec 19) (rt : Reg) (s : State) : Out :=
  branchInstr (.cbnz imm19 rt) true (fun op => op.pc + condBranchOffset imm19) (fun _ op => op.rtVal != 0#64) s

end Sys2Proof.Machine
end

