-- ==== Sys2Proof/Machine/HaltUnknown.lean ====
section
/-! DEFINITION. Halt and unrecognised words (spec/47_halt_unknown.md R340 to R342; format EXC). -/

namespace Sys2Proof.Machine

/-- `HLT` (R340, R341): decode sets `HALT`, execute and memory pass it, write-back sets `RUN_STOP`. `imm16` has no
effect (D31). -/
def execHlt (imm16 : BitVec 16) (s : State) : Out :=
  inStage (deHalt (.instr (.hlt imm16))) (exPass (declared (.hlt imm16))) memPass wbHalt s

/-- `UNKNOWN` (R342): no register, flag, memory or predictor effect in any stage; write-back counts it as retired (D18).
It is the meaning of the words outside the table, so no arm of `exec` calls it. -/
def execUnknown (s : State) : Out :=
  inStage (deStage .unknown) (exPass .nothing) memPass wbNothing s

end Sys2Proof.Machine
end

