-- ==== Sys2Proof/Machine/LoadStore.lean ====
section
/-! DEFINITION. Loads and stores (spec/45_loadstore.md R300 to R311; format LDST_UNSCALED). -/

namespace Sys2Proof.Machine

/-- `LDUR_X` (R301): `mem_val <- zext_64(MemRead(rn_val + imm, 8))`, `x[rt] <- mem_val`. -/
def execLdurX (imm9 : BitVec 9) (rn rt : Reg) (s : State) : Out :=
  loadInstr (.ldurX imm9 rn rt) 8 imm9 rt s

/-- `LDUR_W` (R302): `mem_val <- zext_64(MemRead(rn_val + imm, 4))`, `x[rt] <- mem_val`. -/
def execLdurW (imm9 : BitVec 9) (rn rt : Reg) (s : State) : Out :=
  loadInstr (.ldurW imm9 rn rt) 4 imm9 rt s

/-- `LDURH` (R303): `mem_val <- zext_64(MemRead(rn_val + imm, 2))`, `x[rt] <- mem_val`. -/
def execLdurh (imm9 : BitVec 9) (rn rt : Reg) (s : State) : Out :=
  loadInstr (.ldurh imm9 rn rt) 2 imm9 rt s

/-- `LDURB` (R304): `mem_val <- zext_64(MemRead(rn_val + imm, 1))`, `x[rt] <- mem_val`. -/
def execLdurb (imm9 : BitVec 9) (rn rt : Reg) (s : State) : Out :=
  loadInstr (.ldurb imm9 rn rt) 1 imm9 rt s

/-- `STUR_X` (R305): `MemWrite(rn_val + imm, 8, rt_val)`. -/
def execSturX (imm9 : BitVec 9) (rn rt : Reg) (s : State) : Out :=
  storeInstr (.sturX imm9 rn rt) 8 imm9 s

/-- `STUR_W` (R306): `MemWrite(rn_val + imm, 4, rt_val)`. -/
def execSturW (imm9 : BitVec 9) (rn rt : Reg) (s : State) : Out :=
  storeInstr (.sturW imm9 rn rt) 4 imm9 s

/-- `STURH` (R307): `MemWrite(rn_val + imm, 2, rt_val)`. -/
def execSturh (imm9 : BitVec 9) (rn rt : Reg) (s : State) : Out :=
  storeInstr (.sturh imm9 rn rt) 2 imm9 s

/-- `STURB` (R308): `MemWrite(rn_val + imm, 1, rt_val)`. -/
def execSturb (imm9 : BitVec 9) (rn rt : Reg) (s : State) : Out :=
  storeInstr (.sturb imm9 rn rt) 1 imm9 s

end Sys2Proof.Machine
end

