-- ==== Sys2Proof/Machine/Logical.lean ====
section
/-! DEFINITION. Logical, shifted register (spec/44_alu.md R288 to R292; format LOG_SR). All four shift kinds are legal. -/

namespace Sys2Proof.Machine

/-- `AND_SR` (R289): `result <- a AND b'`. -/
def execAndSR (shift : ShiftType) (rm : Reg) (imm6 : BitVec 6) (rn rd : Reg) (s : State) : Out :=
  aluInstr (.andSR shift rm imm6 rn rd) rd (fun a b => a &&& shiftReg b shift imm6) s

/-- `ANDS_SR` (R290): `result <- a AND b'`, with the flags. -/
def execAndsSR (shift : ShiftType) (rm : Reg) (imm6 : BitVec 6) (rn rd : Reg) (s : State) : Out :=
  aluFlagsInstr (.andsSR shift rm imm6 rn rd) rd (fun a b => a &&& shiftReg b shift imm6) s

/-- `ORR_SR` (R291): `result <- a OR b'`. -/
def execOrrSR (shift : ShiftType) (rm : Reg) (imm6 : BitVec 6) (rn rd : Reg) (s : State) : Out :=
  aluInstr (.orrSR shift rm imm6 rn rd) rd (fun a b => a ||| shiftReg b shift imm6) s

/-- `EOR_SR` (R292): `result <- a XOR b'`. -/
def execEorSR (shift : ShiftType) (rm : Reg) (imm6 : BitVec 6) (rn rd : Reg) (s : State) : Out :=
  aluInstr (.eorSR shift rm imm6 rn rd) rd (fun a b => a ^^^ shiftReg b shift imm6) s

end Sys2Proof.Machine
end

