-- ==== Sys2Proof/Machine/ShiftMoveMul.lean ====
section
/-! DEFINITION. Shifts by immediate, move wide and multiply (spec/44_alu.md R293 to R296; formats BITFIELD, MOVEWIDE, DP3). -/

namespace Sys2Proof.Machine

/-- `LSL_I` (R293): `result <- a << shamt`. -/
def execLslI (shamt : BitVec 6) (rn rd : Reg) (s : State) : Out :=
  aluInstr (.lslI shamt rn rd) rd (fun a _ => a <<< shamt.toNat) s

/-- `LSR_I` (R294): `result <- a >>u shamt`. -/
def execLsrI (shamt : BitVec 6) (rn rd : Reg) (s : State) : Out :=
  aluInstr (.lsrI shamt rn rd) rd (fun a _ => a >>> shamt.toNat) s

/-- `MOVZ` (R295): `result <- imm`; it reads no register. -/
def execMovz (hw : BitVec 2) (imm16 : BitVec 16) (rd : Reg) (s : State) : Out :=
  aluInstr (.movz hw imm16 rd) rd (fun _ _ => moveWideImm hw imm16) s

/-- `MUL` (R296): `result <- a * b`, the low 64 bits. -/
def execMul (rm rn rd : Reg) (s : State) : Out :=
  aluInstr (.mul rm rn rd) rd (fun a b => a * b) s

end Sys2Proof.Machine
end

