-- ==== Sys2Proof/Machine/Dispatch.lean ====
section
/-! DEFINITION. The meaning of every instruction: what it does in the stage the sequencer stands at, one arm a constructor. -/

namespace Sys2Proof.Machine

def exec (i : Instr) (s : State) : Host.Outcome State Fault Refusal :=
  match i with
  | .addI sh imm12 rn rd => Sys2Proof.Machine.execAddI sh imm12 rn rd s
  | .addsI sh imm12 rn rd => Sys2Proof.Machine.execAddsI sh imm12 rn rd s
  | .subI sh imm12 rn rd => Sys2Proof.Machine.execSubI sh imm12 rn rd s
  | .cmpI sh imm12 rn => Sys2Proof.Machine.execCmpI sh imm12 rn s
  | .subsI sh imm12 rn rd => Sys2Proof.Machine.execSubsI sh imm12 rn rd s
  | .addSR shift rm imm6 rn rd => Sys2Proof.Machine.execAddSR shift rm imm6 rn rd s
  | .addsSR shift rm imm6 rn rd => Sys2Proof.Machine.execAddsSR shift rm imm6 rn rd s
  | .subSR shift rm imm6 rn rd => Sys2Proof.Machine.execSubSR shift rm imm6 rn rd s
  | .cmpSR shift rm imm6 rn => Sys2Proof.Machine.execCmpSR shift rm imm6 rn s
  | .subsSR shift rm imm6 rn rd => Sys2Proof.Machine.execSubsSR shift rm imm6 rn rd s
  | .addER rm option imm3 rn rd => Sys2Proof.Machine.execAddER rm option imm3 rn rd s
  | .addsER rm option imm3 rn rd => Sys2Proof.Machine.execAddsER rm option imm3 rn rd s
  | .subER rm option imm3 rn rd => Sys2Proof.Machine.execSubER rm option imm3 rn rd s
  | .cmpER rm option imm3 rn => Sys2Proof.Machine.execCmpER rm option imm3 rn s
  | .subsER rm option imm3 rn rd => Sys2Proof.Machine.execSubsER rm option imm3 rn rd s
  | .andSR shift rm imm6 rn rd => Sys2Proof.Machine.execAndSR shift rm imm6 rn rd s
  | .andsSR shift rm imm6 rn rd => Sys2Proof.Machine.execAndsSR shift rm imm6 rn rd s
  | .orrSR shift rm imm6 rn rd => Sys2Proof.Machine.execOrrSR shift rm imm6 rn rd s
  | .eorSR shift rm imm6 rn rd => Sys2Proof.Machine.execEorSR shift rm imm6 rn rd s
  | .lslI shamt rn rd => Sys2Proof.Machine.execLslI shamt rn rd s
  | .lsrI shamt rn rd => Sys2Proof.Machine.execLsrI shamt rn rd s
  | .movz hw imm16 rd => Sys2Proof.Machine.execMovz hw imm16 rd s
  | .mul rm rn rd => Sys2Proof.Machine.execMul rm rn rd s
  | .ldurX imm9 rn rt => Sys2Proof.Machine.execLdurX imm9 rn rt s
  | .ldurW imm9 rn rt => Sys2Proof.Machine.execLdurW imm9 rn rt s
  | .ldurh imm9 rn rt => Sys2Proof.Machine.execLdurh imm9 rn rt s
  | .ldurb imm9 rn rt => Sys2Proof.Machine.execLdurb imm9 rn rt s
  | .sturX imm9 rn rt => Sys2Proof.Machine.execSturX imm9 rn rt s
  | .sturW imm9 rn rt => Sys2Proof.Machine.execSturW imm9 rn rt s
  | .sturh imm9 rn rt => Sys2Proof.Machine.execSturh imm9 rn rt s
  | .sturb imm9 rn rt => Sys2Proof.Machine.execSturb imm9 rn rt s
  | .b imm26 => Sys2Proof.Machine.execB imm26 s
  | .br rn => Sys2Proof.Machine.execBr rn s
  | .bEQ imm19 => Sys2Proof.Machine.execBEQ imm19 s
  | .bNE imm19 => Sys2Proof.Machine.execBNE imm19 s
  | .bGE imm19 => Sys2Proof.Machine.execBGE imm19 s
  | .bLT imm19 => Sys2Proof.Machine.execBLT imm19 s
  | .bGT imm19 => Sys2Proof.Machine.execBGT imm19 s
  | .bLE imm19 => Sys2Proof.Machine.execBLE imm19 s
  | .cbz imm19 rt => Sys2Proof.Machine.execCbz imm19 rt s
  | .cbnz imm19 rt => Sys2Proof.Machine.execCbnz imm19 rt s
  | .hlt imm16 => Sys2Proof.Machine.execHlt imm16 s

end Sys2Proof.Machine
end

