-- ==== Sys2Proof/Machine/Pipeline.lean ====
section
/-! DEFINITION. The pipeline engine: one clock cycle (spec/40_pipeline_engine.md R130 to R156). Each stage whose input
latch holds a micro-op hands it to its instruction's meaning, `exec`, with the sequencer at that stage; the stall, squash
and freeze muxes, the fetch stage and the end of the cycle stand around it. -/

namespace Sys2Proof.Machine

/-- A tag's part in the stage the sequencer stands at. -/
def runTag (t : Tag) (s : State) : Out :=
  match t with
  | .instr i => exec i s
  | .unknown => execUnknown s

/-- The tag of a decoded word: every rejection is `UNKNOWN` (R101, R102). -/
def tagOfWord (w : InstWord) : Tag :=
  match decode w with
  | .instr i => .instr i
  | .rejected _ => .unknown

/-! ### The stages of one cycle -/

/-- `WB(L.memwb)` (R134). -/
def writeBackStage (s : State) : Out :=
  match s.prev.memwb with
  | none => .next (s.atStage .wb)
  | some op => runTag op.tag (s.atStage .wb)

/-- `MEM(L.exmem)` (R135). -/
def memoryStage (s : State) : Out :=
  match s.prev.exmem with
  | none => .next ((s.atStage .mem).putMemwb none)
  | some op => runTag op.tag (s.atStage .mem)

/-- `EX(L.deex)` (R140). -/
def executeStage (s : State) : Out :=
  match s.prev.deex with
  | none => .next ((s.atStage .ex).putExmem none)
  | some op => runTag op.tag (s.atStage .ex)

/-- `DE(L.ifde)` (R143): a fetch-fault micro-op faults (R343), any other is decoded from its word. -/
def decodeStage (s : State) : Out :=
  match s.prev.ifde with
  | none => .next ((s.atStage .de).putDeex none)
  | some op =>
    if op.fetchFault then raise .fetchNotAdmitted (s.atStage .de)
    else runTag (tagOfWord op.word) (s.atStage .de)

/-- The micro-op that a fetch latches: the word, its address and the recorded prediction (R147, R214). The fields that
later stages write hold zeros, which no rule reads. -/
def fetchedOp (word : InstWord) (pc : Word) (p : Prediction) : MicroOp where
  word := word
  pc := pc
  tag := .unknown
  rnVal := 0#64
  rmVal := 0#64
  rtVal := 0#64
  result := 0#64
  memAddr := 0#64
  memVal := 0#64
  fz := false
  fn := false
  target := 0#64
  taken := false
  predPc := p.next
  btbMiss := p.btbMiss
  phtIdx := p.idx
  fetchFault := false

/-- The fetch-fault micro-op (R147, R343): `pc` and `fetch_fault` are all that R147 gives it. DESIGN CHOICE, unsafe
(notes/assumptions/5.md): its other fields, `word`, `pred_pc`, `btb_miss` and `pht_idx` among them, hold zeros here, and no
rule reads them. -/
def fetchFaultOp (pc : Word) : MicroOp :=
  { fetchedOp 0#32 pc ⟨0#64, false, 0⟩ with fetchFault := true }

/-- `IF(PC)` (R146, R147): halted, not admitted, instruction-cache stall, or hit. A hit reads the word from the memory as
it stands at this point of the cycle (R74) and takes the predicted next PC. -/
def fetchStage (s : State) : State :=
  let s := s.atStage .fetch
  if s.halt then (s.putIfde none).setNextPc s.pc
  else if admitted s.cfg s.pc then
    let r := cacheAccess .instruction s.cfg.ic s.ic s.pc
    if r.2 then
      let p := predict s.cfg s.bp s.pc
      ((s.setIc r.1).putIfde (some (fetchedOp (read32 s.mem s.pc) s.pc p))).setNextPc p.next
    else ((s.setIc r.1).putIfde none).setNextPc s.pc
  else (s.putIfde (some (fetchFaultOp s.pc))).setNextPc s.pc

/-! ### The muxes -/

/-- What DE→EX holds after a freeze: `UPDATE_EXECUTE_WITH_SAVED_OP` selects the hold-and-refresh path (R29, R191). -/
def heldDeex (s : State) : Except Fault Latch :=
  if s.ctl.updateExecuteWithSavedOp then refresh s.prev s.prev.deex else .ok s.prev.deex

/-- The freeze of a data-cache stall (R139): EX→MEM, IF→DE and `PC` are held, and the DE→EX micro-op is held with its
operands refreshed (R191). -/
def freezeMux (s : State) : Out :=
  match heldDeex s with
  | .error f => raise f s
  | .ok l => .next ((((s.putExmem s.prev.exmem).putDeex l).putIfde s.prev.ifde).setNextPc s.pc)

/-- The squash of a mis-prediction (R142, R224): the micro-ops in decode and fetch become bubbles, the fetch acts on the
instruction cache only, and the next PC is the resolved one. -/
def squashMux (s : State) : State :=
  ((((fetchStage s).putDeex none).putIfde none).setNextPc (s.ctl.resolved.getD s.pc)).countSquash

/-- The load-use stall (R145): a bubble into DE→EX, IF→DE and `PC` held, no fetch. -/
def stallMux (s : State) : State := ((s.putDeex none).putIfde s.prev.ifde).setNextPc s.pc

/-! ### The cycle -/

/-- `EndOfCycle` (R148, R149): the next PC, the predictor update, the cycle count, the latch swap, and the one-shot
signals cleared. -/
def endOfCycle (s : State) : State :=
  { s with
    pc := s.ctl.nextPc.getD s.pc
    bp := match s.ctl.upd with
      | some u => s.bp.apply u
      | none => s.bp
    cycles := s.cycles + 1#64
    prev := s.cur
    ctl := Control.cleared
    stage := .wb }

/-- The part of the cycle after the decode stage (R131, R145). -/
def afterDecode (s : State) : Out :=
  if s.ctl.loadStall then .next (endOfCycle (stallMux s)) else .next (endOfCycle (fetchStage s))

/-- Decode and fetch, when execute has not squashed (R131). -/
def frontEnd (s : State) : Out := andThen (decodeStage s) afterDecode

/-- The part of the cycle after the execute stage (R131, R142). -/
def afterExecute (s : State) : Out :=
  if s.ctl.clearDecode then .next (endOfCycle (squashMux s)) else frontEnd s

/-- The part of the cycle after the memory stage (R131, R139). -/
def afterMemory (s : State) : Out :=
  if s.ctl.memStall then andThen (freezeMux s) fun s => .next (endOfCycle s)
  else andThen (executeStage s) afterExecute

/-- The part of the cycle after write-back (R131). -/
def afterWriteBack (s : State) : Out := andThen (memoryStage s) afterMemory

/-- The five stages in the order WB, MEM, EX, DE, IF, after the fill tick (R131, R133). -/
def runStages (s : State) : Out := andThen (writeBackStage (tickFills s.startCycle)) afterWriteBack

/-- The end of a cycle in which a fault was raised: the start-of-cycle state with the record set (R131, R351). -/
def settle (start : State) (o : Out) : Out :=
  match o with
  | .next s =>
    (match s.fault with
      | some r => .next (takeFault start r)
      | none => .next s)
  | .fault f => .fault f
  | .refused r => .refused r

/-- `Cycle(S)` (R131): the identity on a stopped or faulted machine (R132). -/
def cycle (s : State) : Out := if s.stopped then .next s else settle s (runStages s)

end Sys2Proof.Machine
end

