-- ==== Sys2Proof/Machine/Step.lean ====
section
/-! DEFINITION. The step of the machine, one call of `Cycle` (spec/40_pipeline_engine.md R131), and how one instruction is
placed for the next step to run. -/

namespace Sys2Proof.Machine

/-- One step is one clock cycle (R131). -/
def step (s : State) : Host.Outcome State Fault Refusal := cycle s

/-- The state just after the fetch stage has fetched the instruction word of the low `nbits` bits of `w` at `s.pc`: the
memory holds the word there, IF→DE holds its micro-op with the recorded prediction, and `PC` is the predicted next PC
(R147). The next step decodes it and runs it through `exec`; the steps after it carry it to write-back. Fetching at `PC`
takes `1 + IC_MISS_PENALTY` steps on an empty instruction cache (R372), which this placement stands for
(notes/assumptions/6.md). -/
def State.withFetchWord (s : State) (nbits w : Nat) : State :=
  let word := tableWord nbits w
  let p := predict s.cfg s.bp s.pc
  let op := some (fetchedOp word s.pc p)
  { s with
    mem := write32 s.mem s.pc word
    prev := { s.prev with ifde := op }
    cur := { s.cur with ifde := op }
    pc := p.next }

end Sys2Proof.Machine
end

