-- ==== Sys2Proof/Machine/Driver.lean ====
section
/-! DEFINITION. The host interface of spec/70_reset_and_hazards.md R373: how a driver loads an image, runs cycles under
its budget and reports. -/

namespace Sys2Proof.Machine

/-- The record a driver reports (R373). -/
structure Report where
  x        : Vector Word 31
  z        : Bool
  n        : Bool
  pc       : Word
  retired  : Word
  squashes : Word
  cycles   : Word
  runStop  : Bool
  fault    : Option Fault
  deriving DecidableEq, Repr

/-- The reported part of a state (R373). -/
def report (s : State) : Report := ⟨s.x, s.z, s.n, s.pc, s.retired, s.squashes, s.cycles, s.runStop, s.fault⟩

/-- The driver's loop (R345, R373): cycles until the machine is stopped or the budget, `CYCLE_BUDGET`, is exhausted. -/
def drive : Nat → State → Out
  | 0, s => .next s
  | k + 1, s =>
    if s.stopped then .next s
    else match cycle s with
      | .next s' => drive k s'
      | .fault f => .fault f
      | .refused r => .refused r

/-- Loading a word of the program image before a run (R76, R373). -/
def loadWord (m : Memory) (a : Word) (w : InstWord) : Memory := write32 m a w

end Sys2Proof.Machine
end

