-- ==== Sys2Proof/Machine/Sequential.lean ====
section
/-! DEFINITION. One-instruction-at-a-time execution, the reference that the pipeline rules compare themselves with
(spec/41_hazards_forwarding.md R192, spec/70_reset_and_hazards.md R374): what an instruction at address `pc` does to the
registers, the flags and the memory when it runs by itself, and the address of the next instruction. The machine does not
run it: `step` runs the pipeline. Claims compare the two. -/

namespace Sys2Proof.Machine

/-- An ALU instruction that sets no flags (spec/44_alu.md R270). -/
def seqAlu (s : State) (pc : Word) (rd : Reg) (r : Word) : State × Word := (s.setReg rd r, pc + 4#64)

/-- An ALU instruction that sets the flags (R270, R297). -/
def seqAluFlags (s : State) (pc : Word) (rd : Reg) (r : Word) : State × Word :=
  ((s.setFlags (flagZ r) (flagN r)).setReg rd r, pc + 4#64)

/-- A compare: the flags only (R275). -/
def seqCompare (s : State) (pc : Word) (r : Word) : State × Word := (s.setFlags (flagZ r) (flagN r), pc + 4#64)

/-- A load of `n` bytes, zero-extended (spec/45_loadstore.md R300). -/
def seqLoad (s : State) (pc : Word) (imm9 : BitVec 9) (rn rt : Reg) (n : Nat) : State × Word :=
  (s.setReg rt (memRead s.mem (s.reg rn + loadStoreOffset imm9) n), pc + 4#64)

/-- A store of the low `n` bytes of `rt` (R300). -/
def seqStore (s : State) (pc : Word) (imm9 : BitVec 9) (rn rt : Reg) (n : Nat) : State × Word :=
  (s.setMem (memWrite s.mem (s.reg rn + loadStoreOffset imm9) (s.reg rt) n), pc + 4#64)

/-- A conditional branch (spec/46_branch.md R320). -/
def seqBranch (s : State) (pc : Word) (imm19 : BitVec 19) (taken : Bool) : State × Word :=
  (s, if taken then pc + condBranchOffset imm19 else pc + 4#64)

/-- The instruction at `pc` by itself: the state with its registers, flags and memory, and the next address. -/
def seqExec (i : Instr) (pc : Word) (s : State) : State × Word :=
  match i with
  | .addI sh imm12 rn rd => seqAlu s pc rd (s.reg rn + addSubImm sh imm12)
  | .addsI sh imm12 rn rd => seqAluFlags s pc rd (s.reg rn + addSubImm sh imm12)
  | .subI sh imm12 rn rd => seqAlu s pc rd (s.reg rn - addSubImm sh imm12)
  | .cmpI sh imm12 rn => seqCompare s pc (s.reg rn - addSubImm sh imm12)
  | .subsI sh imm12 rn rd => seqAluFlags s pc rd (s.reg rn - addSubImm sh imm12)
  | .addSR shift rm imm6 rn rd => seqAlu s pc rd (s.reg rn + shiftReg (s.reg rm) shift imm6)
  | .addsSR shift rm imm6 rn rd => seqAluFlags s pc rd (s.reg rn + shiftReg (s.reg rm) shift imm6)
  | .subSR shift rm imm6 rn rd => seqAlu s pc rd (s.reg rn - shiftReg (s.reg rm) shift imm6)
  | .cmpSR shift rm imm6 rn => seqCompare s pc (s.reg rn - shiftReg (s.reg rm) shift imm6)
  | .subsSR shift rm imm6 rn rd => seqAluFlags s pc rd (s.reg rn - shiftReg (s.reg rm) shift imm6)
  | .addER rm option imm3 rn rd => seqAlu s pc rd (s.reg rn + extendedOperand (s.reg rm) option imm3)
  | .addsER rm option imm3 rn rd => seqAluFlags s pc rd (s.reg rn + extendedOperand (s.reg rm) option imm3)
  | .subER rm option imm3 rn rd => seqAlu s pc rd (s.reg rn - extendedOperand (s.reg rm) option imm3)
  | .cmpER rm option imm3 rn => seqCompare s pc (s.reg rn - extendedOperand (s.reg rm) option imm3)
  | .subsER rm option imm3 rn rd => seqAluFlags s pc rd (s.reg rn - extendedOperand (s.reg rm) option imm3)
  | .andSR shift rm imm6 rn rd => seqAlu s pc rd (s.reg rn &&& shiftReg (s.reg rm) shift imm6)
  | .andsSR shift rm imm6 rn rd => seqAluFlags s pc rd (s.reg rn &&& shiftReg (s.reg rm) shift imm6)
  | .orrSR shift rm imm6 rn rd => seqAlu s pc rd (s.reg rn ||| shiftReg (s.reg rm) shift imm6)
  | .eorSR shift rm imm6 rn rd => seqAlu s pc rd (s.reg rn ^^^ shiftReg (s.reg rm) shift imm6)
  | .lslI shamt rn rd => seqAlu s pc rd (s.reg rn <<< shamt.toNat)
  | .lsrI shamt rn rd => seqAlu s pc rd (s.reg rn >>> shamt.toNat)
  | .movz hw imm16 rd => seqAlu s pc rd (moveWideImm hw imm16)
  | .mul rm rn rd => seqAlu s pc rd (s.reg rn * s.reg rm)
  | .ldurX imm9 rn rt => seqLoad s pc imm9 rn rt 8
  | .ldurW imm9 rn rt => seqLoad s pc imm9 rn rt 4
  | .ldurh imm9 rn rt => seqLoad s pc imm9 rn rt 2
  | .ldurb imm9 rn rt => seqLoad s pc imm9 rn rt 1
  | .sturX imm9 rn rt => seqStore s pc imm9 rn rt 8
  | .sturW imm9 rn rt => seqStore s pc imm9 rn rt 4
  | .sturh imm9 rn rt => seqStore s pc imm9 rn rt 2
  | .sturb imm9 rn rt => seqStore s pc imm9 rn rt 1
  | .b imm26 => (s, pc + branchOffset imm26)
  | .br rn => (s, s.reg rn)
  | .bEQ imm19 => seqBranch s pc imm19 (condHolds .eq s.z s.n)
  | .bNE imm19 => seqBranch s pc imm19 (condHolds .ne s.z s.n)
  | .bGE imm19 => seqBranch s pc imm19 (condHolds .ge s.z s.n)
  | .bLT imm19 => seqBranch s pc imm19 (condHolds .lt s.z s.n)
  | .bGT imm19 => seqBranch s pc imm19 (condHolds .gt s.z s.n)
  | .bLE imm19 => seqBranch s pc imm19 (condHolds .le s.z s.n)
  | .cbz imm19 rt => seqBranch s pc imm19 (s.reg rt == 0#64)
  | .cbnz imm19 rt => seqBranch s pc imm19 (s.reg rt != 0#64)
  | .hlt _ => (s.setRunStop, pc + 4#64)

end Sys2Proof.Machine
end

