-- ==== Sys2Proof/Safety.lean ====
section
/-! DEFINITION. The terms claims use: classes of instructions, the invariants the spec states or derives, and the
conditions under which one instruction passes alone through the pipeline. -/

namespace Sys2Proof.Machine

/-! ### Classes of instructions -/

/-- What the memory stage does with a tag (spec/20_memory.md R66): nothing, or an access of so many bytes. -/
inductive MemKind where
  | none
  | load (width : Nat)
  | store (width : Nat)
  deriving DecidableEq, Repr

/-- The memory class of each instruction (R66, spec/40_pipeline_engine.md R135). -/
def memKind : Instr → MemKind
  | .addI _ _ _ _ => .none
  | .addsI _ _ _ _ => .none
  | .subI _ _ _ _ => .none
  | .cmpI _ _ _ => .none
  | .subsI _ _ _ _ => .none
  | .addSR _ _ _ _ _ => .none
  | .addsSR _ _ _ _ _ => .none
  | .subSR _ _ _ _ _ => .none
  | .cmpSR _ _ _ _ => .none
  | .subsSR _ _ _ _ _ => .none
  | .addER _ _ _ _ _ => .none
  | .addsER _ _ _ _ _ => .none
  | .subER _ _ _ _ _ => .none
  | .cmpER _ _ _ _ => .none
  | .subsER _ _ _ _ _ => .none
  | .andSR _ _ _ _ _ => .none
  | .andsSR _ _ _ _ _ => .none
  | .orrSR _ _ _ _ _ => .none
  | .eorSR _ _ _ _ _ => .none
  | .lslI _ _ _ => .none
  | .lsrI _ _ _ => .none
  | .movz _ _ _ => .none
  | .mul _ _ _ => .none
  | .ldurX _ _ _ => .load 8
  | .ldurW _ _ _ => .load 4
  | .ldurh _ _ _ => .load 2
  | .ldurb _ _ _ => .load 1
  | .sturX _ _ _ => .store 8
  | .sturW _ _ _ => .store 4
  | .sturh _ _ _ => .store 2
  | .sturb _ _ _ => .store 1
  | .b _ => .none
  | .br _ => .none
  | .bEQ _ => .none
  | .bNE _ => .none
  | .bGE _ => .none
  | .bLT _ => .none
  | .bGT _ => .none
  | .bLE _ => .none
  | .cbz _ _ => .none
  | .cbnz _ _ => .none
  | .hlt _ => .none

/-- The branch class of each instruction (spec/42_branch_predictor.md R216): conditional or not, for a branch. -/
def branchKind : Instr → Option Bool
  | .addI _ _ _ _ => none
  | .addsI _ _ _ _ => none
  | .subI _ _ _ _ => none
  | .cmpI _ _ _ => none
  | .subsI _ _ _ _ => none
  | .addSR _ _ _ _ _ => none
  | .addsSR _ _ _ _ _ => none
  | .subSR _ _ _ _ _ => none
  | .cmpSR _ _ _ _ => none
  | .subsSR _ _ _ _ _ => none
  | .addER _ _ _ _ _ => none
  | .addsER _ _ _ _ _ => none
  | .subER _ _ _ _ _ => none
  | .cmpER _ _ _ _ => none
  | .subsER _ _ _ _ _ => none
  | .andSR _ _ _ _ _ => none
  | .andsSR _ _ _ _ _ => none
  | .orrSR _ _ _ _ _ => none
  | .eorSR _ _ _ _ _ => none
  | .lslI _ _ _ => none
  | .lsrI _ _ _ => none
  | .movz _ _ _ => none
  | .mul _ _ _ => none
  | .ldurX _ _ _ => none
  | .ldurW _ _ _ => none
  | .ldurh _ _ _ => none
  | .ldurb _ _ _ => none
  | .sturX _ _ _ => none
  | .sturW _ _ _ => none
  | .sturh _ _ _ => none
  | .sturb _ _ _ => none
  | .b _ => some false
  | .br _ => some false
  | .bEQ _ => some true
  | .bNE _ => some true
  | .bGE _ => some true
  | .bLT _ => some true
  | .bGT _ => some true
  | .bLE _ => some true
  | .cbz _ _ => some true
  | .cbnz _ _ => some true
  | .hlt _ => none

/-- The halt tag (spec/47_halt_unknown.md R340). -/
def isHalt : Instr → Bool
  | .addI _ _ _ _ => false
  | .addsI _ _ _ _ => false
  | .subI _ _ _ _ => false
  | .cmpI _ _ _ => false
  | .subsI _ _ _ _ => false
  | .addSR _ _ _ _ _ => false
  | .addsSR _ _ _ _ _ => false
  | .subSR _ _ _ _ _ => false
  | .cmpSR _ _ _ _ => false
  | .subsSR _ _ _ _ _ => false
  | .addER _ _ _ _ _ => false
  | .addsER _ _ _ _ _ => false
  | .subER _ _ _ _ _ => false
  | .cmpER _ _ _ _ => false
  | .subsER _ _ _ _ _ => false
  | .andSR _ _ _ _ _ => false
  | .andsSR _ _ _ _ _ => false
  | .orrSR _ _ _ _ _ => false
  | .eorSR _ _ _ _ _ => false
  | .lslI _ _ _ => false
  | .lsrI _ _ _ => false
  | .movz _ _ _ => false
  | .mul _ _ _ => false
  | .ldurX _ _ _ => false
  | .ldurW _ _ _ => false
  | .ldurh _ _ _ => false
  | .ldurb _ _ _ => false
  | .sturX _ _ _ => false
  | .sturW _ _ _ => false
  | .sturh _ _ _ => false
  | .sturb _ _ _ => false
  | .b _ => false
  | .br _ => false
  | .bEQ _ => false
  | .bNE _ => false
  | .bGE _ => false
  | .bLT _ => false
  | .bGT _ => false
  | .bLE _ => false
  | .cbz _ _ => false
  | .cbnz _ _ => false
  | .hlt _ => true

/-- A micro-op whose commit stops the machine (R341). -/
def Tag.halts : Tag → Bool
  | .instr i => isHalt i
  | .unknown => false

/-! ### States -/

/-- The machine is neither stopped nor faulted (R132). -/
def State.running (s : State) : Bool := !s.stopped

/-- A state as a cycle leaves it (R149): the sequencer at its first stage, the one-shot signals cleared, the latch copies
swapped. -/
def State.atBoundary (s : State) : Bool :=
  decide (s.stage = .wb) && decide (s.ctl = Control.cleared) && decide (s.cur = s.prev)

/-- The state handed to the write-back stage: the fill engines have ticked (R131, R133). -/
def State.atCycleStart (s : State) : State := tickFills s.startCycle

/-! ### Invariants -/

/-- A latch's micro-op was fetched from a multiple of 4. -/
def latchAligned (l : Latch) : Bool :=
  match l with
  | none => true
  | some op => aligned4 op.pc

/-- The alignment invariant behind spec/10_state.md R24: `PC`, the addresses of the micro-ops still to execute and the
targets the BTB can predict are multiples of 4. -/
def State.pcAligned (s : State) : Bool :=
  aligned4 s.pc && latchAligned s.prev.ifde && latchAligned s.prev.deex &&
    s.bp.btb.all fun e => aligned4 e.2.target

/-- The ages of the valid ways of a set. -/
def validAges (ws : List Way) : List Nat := (ws.filter (·.valid)).map (·.age)

/-- The recency invariant of spec/43_cache.md R242 for one set: the valid ways hold the distinct ages `0 .. k-1`. -/
def setLru (g : CacheGeometry) (ws : List Way) : Bool :=
  decide (ws.length = g.ways) && decide (validAges ws).Nodup && (validAges ws).all fun a => decide (a < (validAges ws).length)

/-- The recency invariant of R242 for every set of a cache. -/
def Cache.lru (g : CacheGeometry) (c : Cache) : Bool := c.sets.all fun e => setLru g e.2

/-- The recency invariant of both caches (R242). -/
def State.lru (s : State) : Bool := s.ic.lru s.cfg.ic && s.dc.lru s.cfg.dc

/-- The tags of the valid ways of a set. -/
def validTags (ws : List Way) : List Nat := (ws.filter (·.valid)).map (·.tag)

/-- At most one way of a set holds a tag, and a block being filled is in no way of its set (R243). -/
def Cache.tagsDistinct (g : CacheGeometry) (c : Cache) : Bool :=
  (c.sets.all fun e => decide (validTags e.2).Nodup) &&
    match c.fill with
    | none => true
    | some f => (lookup (tagOf g f.block) (setWays g c (setIndexOf g f.block))).isNone

/-- R243 for both caches. -/
def State.tagsDistinct (s : State) : Bool := s.ic.tagsDistinct s.cfg.ic && s.dc.tagsDistinct s.cfg.dc

/-- A declared source field of a decoded micro-op holds the value of the register file, unless a micro-op ahead of it
still has to write that register (spec/41_hazards_forwarding.md R192); a field of index 31 holds 0 (R194). -/
def sourceCoherent (s : State) (r : Option Reg) (v : Word) : Bool :=
  match r with
  | none => true
  | some r =>
    if r = zeroReg then v == 0#64
    else writesReg s.prev.exmem r || writesReg s.prev.memwb r || v == s.reg r

/-- The operand invariant behind R192, for the micro-op in DE→EX. -/
def State.operandsCoherent (s : State) : Bool :=
  match s.prev.deex with
  | none => true
  | some op =>
    sourceCoherent s op.tag.declared.rn op.rnVal && sourceCoherent s op.tag.declared.rm op.rmVal &&
      sourceCoherent s op.tag.declared.rt op.rtVal

/-- A source field does not name the destination of a load in EX→MEM. -/
def notLoadedBy (l : Latch) (r : Option Reg) : Bool :=
  match r with
  | none => true
  | some r =>
    match l with
    | none => true
    | some a => !(decide (r ≠ zeroReg) && decide (a.tag.declared.writes = .memVal) && decide (a.tag.declared.dst = some r))

/-- The invariant behind spec/41_hazards_forwarding.md R189: no declared source of the micro-op in DE→EX is the
destination of a load in EX→MEM. -/
def State.noLoadAhead (s : State) : Bool :=
  match s.prev.deex with
  | none => true
  | some op =>
    notLoadedBy s.prev.exmem op.tag.declared.rn && notLoadedBy s.prev.exmem op.tag.declared.rm &&
      notLoadedBy s.prev.exmem op.tag.declared.rt

/-- The invariant behind spec/40_pipeline_engine.md R153: once `HALT` is set no younger micro-op is in IF→DE. -/
def State.haltDrains (s : State) : Bool := !s.halt || s.prev.ifde.isNone

/-- The history and the PHT indices in flight are `H` bits wide (spec/10_state.md R25, R31). -/
def latchPhtIdx (c : Config) (l : Latch) : Bool :=
  match l with
  | none => true
  | some op => decide (op.phtIdx < 2 ^ c.ghrBits)

/-- The widths of the predictor's data (R31 to R33): the history and every PHT index below `2^H`, every BTB index below
`2^BTB_BITS`. -/
def State.predictorWidths (s : State) : Bool :=
  decide (s.bp.ghr < 2 ^ s.cfg.ghrBits) && (s.bp.pht.all fun e => decide (e.1 < 2 ^ s.cfg.ghrBits)) &&
    (s.bp.btb.all fun e => decide (e.1 < 2 ^ s.cfg.btbBits)) &&
    latchPhtIdx s.cfg s.prev.ifde && latchPhtIdx s.cfg s.prev.deex

/-! ### One instruction alone in the pipeline -/

/-- The fetch stage waits for a fill of its own block that lasts more than `k` further cycle starts (R246). -/
def State.fetchWaits (s : State) (k : Nat) : Bool :=
  admitted s.cfg s.pc &&
    match s.ic.fill with
    | none => false
    | some f => decide (f.block = blockOf s.cfg.ic s.pc.toNat) && decide (k < f.remaining)

/-- The only micro-op in flight is `op`, just fetched, and nothing else enters the pipeline for `k` cycles. -/
def State.alone (s : State) (op : MicroOp) (k : Nat) : Bool :=
  s.running && !s.halt && decide (s.prev = ⟨some op, none, none, none⟩) && !op.fetchFault && s.fetchWaits k

/-- A data access at `a` would hit the data cache, and no data fill is pending. -/
def State.dataHits (s : State) (a : Word) : Bool :=
  decide (s.dc.fill = none) && (cacheAccess .data s.cfg.dc s.dc a).2

/-! ### What one instruction does in one stage

The predicates below say, for one instruction and every state and micro-op, that `exec` ANSWERS A NEXT STATE and which
one. They name the operands by `operandOf`, which is total, in place of the machine's `Except`-valued network. -/

/-- The value the forwarding network gives a source register (spec/41_hazards_forwarding.md R186) where no load in EX→MEM
supplies it: index 31 keeps the decoded value, then EX→MEM, then MEM→WB, then the decoded value. -/
def operandOf (L : Latches) (r : Reg) (v : Word) : Word :=
  if r = zeroReg then v
  else
    match L.exmem, L.memwb with
    | some a, some b =>
      if writesReg (some a) r then a.result else if writesReg (some b) r then supplied b else v
    | some a, none => if writesReg (some a) r then a.result else v
    | none, some b => if writesReg (some b) r then supplied b else v
    | none, none => v

/-- The same for a source field that may be undeclared (spec/30_encoding.md R104). -/
def sourceOf (L : Latches) (r : Option Reg) (v : Word) : Word :=
  match r with
  | none => v
  | some r => operandOf L r v

/-- The micro-op with its declared sources forwarded. -/
def withSources (d : Declared) (L : Latches) (op : MicroOp) : MicroOp :=
  { op with rnVal := sourceOf L d.rn op.rnVal, rmVal := sourceOf L d.rm op.rmVal, rtVal := sourceOf L d.rt op.rtVal }

/-- Execute of an ALU instruction reading `rn` and `rm` (spec/44_alu.md R270): the result of the forwarded operands, and
its flags where the instruction sets them; nothing else of the state changes than EX→MEM. -/
def ExecutesAlu (i : Instr) (rn rm : Option Reg) (flags : Bool) (result : Word → Word → Word) : Prop :=
  ∀ (s : State) (op : MicroOp), s.stage = .ex → s.prev.deex = some op →
    notLoadedBy s.prev.exmem rn = true → notLoadedBy s.prev.exmem rm = true →
    exec i s = .next { s with cur := { s.cur with exmem := some { op with
      rnVal := sourceOf s.prev rn op.rnVal
      rmVal := sourceOf s.prev rm op.rmVal
      result := result (sourceOf s.prev rn op.rnVal) (sourceOf s.prev rm op.rmVal)
      fz := if flags then decide (result (sourceOf s.prev rn op.rnVal) (sourceOf s.prev rm op.rmVal) = 0#64) else op.fz
      fn := if flags then (result (sourceOf s.prev rn op.rnVal) (sourceOf s.prev rm op.rmVal)).getLsbD 63 else op.fn } } }

/-- Execute of a load or store (spec/45_loadstore.md R300): the effective address of the forwarded base, and for a store
the forwarded data register. -/
def ExecutesAddress (i : Instr) (rn : Reg) (data : Option Reg) (imm9 : BitVec 9) : Prop :=
  ∀ (s : State) (op : MicroOp), s.stage = .ex → s.prev.deex = some op →
    notLoadedBy s.prev.exmem (some rn) = true → notLoadedBy s.prev.exmem data = true →
    exec i s = .next { s with cur := { s.cur with exmem := some { op with
      rnVal := sourceOf s.prev (some rn) op.rnVal
      rtVal := sourceOf s.prev data op.rtVal
      memAddr := BitVec.ofInt 64 ((sourceOf s.prev (some rn) op.rnVal).toNat + imm9.toInt)
      memVal := if data.isSome then sourceOf s.prev data op.rtVal else op.memVal } } }

/-- Execute of a branch of the conditional or unconditional class (spec/46_branch.md R320, spec/42_branch_predictor.md
R220, R222, R223) whose resolved PC is a multiple of 4: the micro-op with its target and direction, the squash signal,
the resolved PC and the predictor update; nothing else of the state changes. -/
def ResolvesBranch (i : Instr) (cond : Bool) (rn rt : Option Reg) (target : Word → Word → Word)
    (taken : State → Word → Bool) : Prop :=
  ∀ (s : State) (op : MicroOp) (tgt next : Word) (tk : Bool), s.stage = .ex → s.prev.deex = some op →
    notLoadedBy s.prev.exmem rn = true → notLoadedBy s.prev.exmem rt = true →
    tgt = target op.pc (sourceOf s.prev rn op.rnVal) → tk = taken s (sourceOf s.prev rt op.rtVal) →
    next = (if tk then tgt else op.pc + 4#64) → next.toNat % 4 = 0 →
    exec i s = .next { s with
      cur := { s.cur with exmem := some { op with
        rnVal := sourceOf s.prev rn op.rnVal
        rtVal := sourceOf s.prev rt op.rtVal
        target := tgt
        taken := tk } }
      ctl := { s.ctl with
        clearDecode := decide (op.predPc ≠ next)
        resolved := some next
        upd := some {
          btbIdx := btbIndex s.cfg op.pc
          btbEntry := ⟨true, op.pc, tgt, cond⟩
          pht := if cond then some (op.phtIdx, bump (s.bp.counter op.phtIdx) tk) else none
          ghr := if cond then some (shiftHistory s.cfg s.bp.ghr tk) else none } } }

/-- The memory stage passes the micro-op (spec/40_pipeline_engine.md R138). -/
def PassesMemory (i : Instr) : Prop :=
  ∀ (s : State) (op : MicroOp), s.stage = .mem → s.prev.exmem = some op →
    exec i s = .next { s with cur := { s.cur with memwb := some op } }

/-- Every byte of an access of `n` bytes at `a` lies in an admitted word (spec/20_memory.md R67). -/
def accessible (c : Config) (a : Word) (n : Nat) : Prop := ∀ k < n, admitted c (a + BitVec.ofNat 64 k) = true

/-- The memory stage of a load of `n` bytes that hits (spec/45_loadstore.md R300 to R304): the loaded value is the `n`
bytes at the address, least significant first, and 0 above them; the data cache takes the access. -/
def LoadsFromMemory (i : Instr) (n : Nat) : Prop :=
  ∀ (s : State) (op : MicroOp), s.stage = .mem → s.prev.exmem = some op → accessible s.cfg op.memAddr n →
    (cacheAccess .data s.cfg.dc s.dc op.memAddr).2 = true →
    ∃ v : Word,
      exec i s = .next { s with
        dc := (cacheAccess .data s.cfg.dc s.dc op.memAddr).1
        cur := { s.cur with memwb := some { op with memVal := v } } } ∧
      ∀ k < 8, v.extractLsb' (8 * k) 8 = if k < n then readByte s.mem (op.memAddr + BitVec.ofNat 64 k) else 0#8

/-- The memory stage of a store of `n` bytes that hits (spec/45_loadstore.md R300, R305 to R308): byte `k` of the store
data goes to address `memAddr + k`, and every other byte of memory reads as before. -/
def StoresToMemory (i : Instr) (n : Nat) : Prop :=
  ∀ (s : State) (op : MicroOp), s.stage = .mem → s.prev.exmem = some op → accessible s.cfg op.memAddr n →
    (cacheAccess .data s.cfg.dc s.dc op.memAddr).2 = true →
    ∃ m : Memory,
      exec i s = .next { s with
        mem := m
        dc := (cacheAccess .data s.cfg.dc s.dc op.memAddr).1
        cur := { s.cur with memwb := some op } } ∧
      ∀ b : Word, readByte m b =
        if (b - op.memAddr).toNat < n then op.memVal.extractLsb' (8 * (b - op.memAddr).toNat) 8 else readByte s.mem b

/-- The memory stage of an access that does not complete: the miss raises `MEM_STALL` and touches no byte
(spec/40_pipeline_engine.md R137), the address outside `MEM_ADMIT` raises `DataNotAdmitted` before the cache is looked up
(spec/20_memory.md R67). -/
def WaitsOrFaults (i : Instr) (n : Nat) : Prop :=
  ∀ (s : State) (op : MicroOp), s.stage = .mem → s.prev.exmem = some op →
    (accessible s.cfg op.memAddr n → (cacheAccess .data s.cfg.dc s.dc op.memAddr).2 = false →
      exec i s = .next { s with
        dc := (cacheAccess .data s.cfg.dc s.dc op.memAddr).1
        cur := { s.cur with memwb := none }
        ctl := { s.ctl with memStall := true, updateExecuteWithSavedOp := true } }) ∧
    (¬ accessible s.cfg op.memAddr n → exec i s = .next { s with fault := some .dataNotAdmitted })

/-- Write-back (spec/40_pipeline_engine.md R134): the destination, unless it is index 31, takes the value; the flags take
the micro-op's where the instruction sets them; the micro-op counts as retired; nothing else changes. -/
def Commits (i : Instr) (dst : Option Reg) (value : MicroOp → Word) (flags : Bool) : Prop :=
  ∀ (s : State) (op : MicroOp), s.stage = .wb → s.prev.memwb = some op →
    ∃ t : State, exec i s = .next t ∧
      (∀ r : Reg, t.reg r = if dst = some r ∧ r ≠ zeroReg then value op else s.reg r) ∧
      t = { s with
        x := t.x
        z := if flags then op.fz else s.z
        n := if flags then op.fn else s.n
        retired := s.retired + 1#64 }

/-- An ALU instruction in execute, memory and write-back (spec/44_alu.md R270). -/
def RunsAlu (i : Instr) (rn rm dst : Option Reg) (flags : Bool) (result : Word → Word → Word) : Prop :=
  ExecutesAlu i rn rm flags result ∧ PassesMemory i ∧ Commits i dst MicroOp.result flags

/-- A load of `n` bytes in execute, memory and write-back (spec/45_loadstore.md R300). -/
def RunsLoad (i : Instr) (n : Nat) (imm9 : BitVec 9) (rn rt : Reg) : Prop :=
  ExecutesAddress i rn none imm9 ∧ LoadsFromMemory i n ∧ WaitsOrFaults i n ∧ Commits i (some rt) MicroOp.memVal false

/-- A store of `n` bytes in execute, memory and write-back (spec/45_loadstore.md R300). -/
def RunsStore (i : Instr) (n : Nat) (imm9 : BitVec 9) (rn rt : Reg) : Prop :=
  ExecutesAddress i rn (some rt) imm9 ∧ StoresToMemory i n ∧ WaitsOrFaults i n ∧ Commits i none MicroOp.result false

/-- A branch in execute, memory and write-back (spec/46_branch.md R320, R332). -/
def RunsBranch (i : Instr) (cond : Bool) (rn rt : Option Reg) (target : Word → Word → Word)
    (taken : State → Word → Bool) : Prop :=
  ResolvesBranch i cond rn rt target taken ∧ PassesMemory i ∧ Commits i none MicroOp.result false

/-! ### What the memory stage of a cycle does -/

/-- What the memory stage of the next cycle does with EX→MEM (spec/40_pipeline_engine.md R135 to R137). -/
inductive MemoryOutcome where
  | done | waits | faults
  deriving DecidableEq, Repr

/-- An access of `n` bytes at `a` in the next cycle: the admission check, then the data cache after its tick. -/
def State.accessOutcome (s : State) (a : Word) (n : Nat) : MemoryOutcome :=
  if accessAdmitted s.cfg a n then
    if (cacheAccess .data s.cfg.dc (tickFill s.cfg.dc s.dc) a).2 then .done else .waits
  else .faults

/-- The outcome for the micro-op in EX→MEM: a bubble, `UNKNOWN` and an instruction that accesses no memory pass. -/
def State.memoryOutcome (s : State) : MemoryOutcome :=
  match s.prev.exmem with
  | none => .done
  | some op =>
    match op.tag with
    | .unknown => .done
    | .instr i =>
      match memKind i with
      | .none => .done
      | .load n => s.accessOutcome op.memAddr n
      | .store n => s.accessOutcome op.memAddr n

/-- The register `r` after every micro-op ahead of DE→EX has committed: EX→MEM writes last, MEM→WB before it. -/
def State.committedReg (s : State) (r : Reg) : Word :=
  if r = zeroReg then 0#64
  else if writesReg s.prev.exmem r then (s.prev.exmem.map supplied).getD 0#64
  else if writesReg s.prev.memwb r then (s.prev.memwb.map supplied).getD 0#64
  else s.reg r

/-- The flags after every micro-op ahead of DE→EX has committed. -/
def State.committedFlags (s : State) : Bool × Bool :=
  match flagSource s.prev.exmem, flagSource s.prev.memwb with
  | some a, _ => (a.fz, a.fn)
  | none, some b => (b.fz, b.fn)
  | none, none => (s.z, s.n)

/-- The micro-op in DE→EX is a branch (spec/42_branch_predictor.md R216). -/
def State.branchInExecute (s : State) : Option (MicroOp × Bool) :=
  match s.prev.deex with
  | none => none
  | some op =>
    match op.tag with
    | .unknown => none
    | .instr i => (branchKind i).map fun c => (op, c)

/-- The next PC of an instruction at `pc` (spec/42_branch_predictor.md R222, spec/46_branch.md R321 to R331) with the value
`a` of its base register, the value `v` of its tested register and the flags: the branch's, and `pc + 4` for any other. -/
def nextPcOf (i : Instr) (pc a v : Word) (z n : Bool) : Word :=
  match i with
  | .addI _ _ _ _ => pc + 4#64
  | .addsI _ _ _ _ => pc + 4#64
  | .subI _ _ _ _ => pc + 4#64
  | .cmpI _ _ _ => pc + 4#64
  | .subsI _ _ _ _ => pc + 4#64
  | .addSR _ _ _ _ _ => pc + 4#64
  | .addsSR _ _ _ _ _ => pc + 4#64
  | .subSR _ _ _ _ _ => pc + 4#64
  | .cmpSR _ _ _ _ => pc + 4#64
  | .subsSR _ _ _ _ _ => pc + 4#64
  | .addER _ _ _ _ _ => pc + 4#64
  | .addsER _ _ _ _ _ => pc + 4#64
  | .subER _ _ _ _ _ => pc + 4#64
  | .cmpER _ _ _ _ => pc + 4#64
  | .subsER _ _ _ _ _ => pc + 4#64
  | .andSR _ _ _ _ _ => pc + 4#64
  | .andsSR _ _ _ _ _ => pc + 4#64
  | .orrSR _ _ _ _ _ => pc + 4#64
  | .eorSR _ _ _ _ _ => pc + 4#64
  | .lslI _ _ _ => pc + 4#64
  | .lsrI _ _ _ => pc + 4#64
  | .movz _ _ _ => pc + 4#64
  | .mul _ _ _ => pc + 4#64
  | .ldurX _ _ _ => pc + 4#64
  | .ldurW _ _ _ => pc + 4#64
  | .ldurh _ _ _ => pc + 4#64
  | .ldurb _ _ _ => pc + 4#64
  | .sturX _ _ _ => pc + 4#64
  | .sturW _ _ _ => pc + 4#64
  | .sturh _ _ _ => pc + 4#64
  | .sturb _ _ _ => pc + 4#64
  | .b imm26 => pc + branchOffset imm26
  | .br _ => a
  | .bEQ imm19 => if z then pc + condBranchOffset imm19 else pc + 4#64
  | .bNE imm19 => if !z then pc + condBranchOffset imm19 else pc + 4#64
  | .bGE imm19 => if !n then pc + condBranchOffset imm19 else pc + 4#64
  | .bLT imm19 => if n then pc + condBranchOffset imm19 else pc + 4#64
  | .bGT imm19 => if !z && !n then pc + condBranchOffset imm19 else pc + 4#64
  | .bLE imm19 => if z || n then pc + condBranchOffset imm19 else pc + 4#64
  | .cbz imm19 _ => if v = 0#64 then pc + condBranchOffset imm19 else pc + 4#64
  | .cbnz imm19 _ => if v = 0#64 then pc + 4#64 else pc + condBranchOffset imm19
  | .hlt _ => pc + 4#64

/-- The resolved PC of the branch in execute, on the operands the forwarding network gives it and the flags it reads. -/
def State.resolvedInExecute (s : State) : Option Word :=
  match s.prev.deex with
  | none => none
  | some op =>
    match op.tag with
    | .unknown => none
    | .instr i =>
      (branchKind i).map fun _ =>
        nextPcOf i op.pc (sourceOf s.prev (declared i).rn op.rnVal) (sourceOf s.prev (declared i).rt op.rtVal)
          s.committedFlags.1 s.committedFlags.2

/-- The predicted PC recorded in the micro-op in DE→EX. -/
def State.predictedInExecute (s : State) : Option Word := s.prev.deex.map (·.predPc)

/-- Execute neither squashes nor finds a misaligned target: there is no branch, or it was predicted right, to a multiple
of 4 (R223; spec/46_branch.md R320). -/
def State.executePasses (s : State) : Bool :=
  match s.resolvedInExecute with
  | none => true
  | some next => decide (s.predictedInExecute = some next) && aligned4 next

/-- Execute squashes to a multiple of 4 (R223, R224). -/
def State.squashesTo (s : State) (next : Word) : Bool :=
  decide (s.resolvedInExecute = some next) && decide (s.predictedInExecute ≠ some next) && aligned4 next

/-- Decode takes the micro-op in IF→DE: none is there, or it is no fetch-fault micro-op and has no load-use hazard (R143,
R145). -/
def State.decodePasses (s : State) : Bool :=
  match s.prev.ifde with
  | none => true
  | some op => !op.fetchFault && !loadUse (tagOfWord op.word).declared s.prev.deex

/-- The micro-op in IF→DE is a `HLT` (R144). -/
def State.haltInDecode (s : State) : Bool :=
  match s.prev.ifde with
  | none => false
  | some op => (tagOfWord op.word).halts

/-- `n` ticks of a fill engine. -/
def ticks (g : CacheGeometry) : Nat → Cache → Cache
  | 0, c => c
  | n + 1, c => ticks g n (tickFill g c)

end Sys2Proof.Machine
end

