-- ==== Sys2Proof/Certificates/Slice0/Obligations.lean ====
section
/-! DEFINITION. The statements for the provers. Each is listed in OBLIGATIONS.json with the rules of spec/ it rests on. -/

section

open Sys2Proof Sys2Proof.Machine

/-! ### Encoding -/

/-- Decoding the word the encoder writes for a well-formed instruction gives that instruction, for every operand value
(spec/30_encoding.md R91, R97, R101, R105). -/
def Obligations.DecodeInvertsEncode : Prop :=
  ∀ i : Instr, i.wellFormed = true → decode (encode i) = .instr i

/-- Every word the decoder recognises is the encoding of a well-formed instruction, so no bit of a recognised word is
dropped and no `SUBS` with `Rd = 31`, `ROR` in add/subtract or extension amount above 4 is ever decoded (R97 to R102). -/
def Obligations.EncodeInvertsDecode : Prop :=
  ∀ (w : InstWord) (i : Instr), decode w = .instr i → i.wellFormed = true ∧ encode i = w

/-- Words of the worked examples of spec/44_alu.md, 45_loadstore.md, 46_branch.md and 47_halt_unknown.md. -/
def Obligations.WorkedExampleWordsDecode : Prop :=
  decode 0x917FFC41#32 = .instr (.addI 1#1 0xFFF#12 2#5 1#5) ∧
  decode 0xF100145F#32 = .instr (.cmpI 0#1 5#12 2#5) ∧
  decode 0xAB83FC41#32 = .instr (.addsSR .asr 3#5 63#6 2#5 1#5) ∧
  decode 0xEB23A45F#32 = .instr (.cmpER 3#5 .sxth 1#3 2#5) ∧
  decode 0x8AC30441#32 = .instr (.andSR .ror 3#5 1#6 2#5 1#5) ∧
  decode 0xD3410041#32 = .instr (.lslI 63#6 2#5 1#5) ∧
  decode 0xD340FC41#32 = .instr (.lsrI 0#6 2#5 1#5) ∧
  decode 0xD2F579A1#32 = .instr (.movz 3#2 0xABCD#16 1#5) ∧
  decode 0x785FF041#32 = .instr (.ldurh 0x1FF#9 2#5 1#5) ∧
  decode 0xF8002043#32 = .instr (.sturX 2#9 2#5 3#5) ∧
  decode 0x17FFFFFF#32 = .instr (.b 0x3FFFFFF#26) ∧
  decode 0xD61F0140#32 = .instr (.br 10#5) ∧
  decode 0x54FFFFC1#32 = .instr (.bNE 0x7FFFE#19) ∧
  decode 0xB5FFFFC1#32 = .instr (.cbnz 0x7FFFE#19 1#5) ∧
  decode 0xD4400000#32 = .instr (.hlt 0#16) ∧
  tagOfWord 0xD503201F#32 = .unknown ∧ tagOfWord 0x00000000#32 = .unknown ∧
  tagOfWord 0x94000001#32 = .unknown ∧ tagOfWord 0xD65F03C0#32 = .unknown

/-- The words that decode as `UNKNOWN` (R102): those no row matches, and the reserved values of the four formats. -/
def Obligations.ReservedWordsAreUnknown : Prop :=
  ∀ w : InstWord, tagOfWord w = .unknown ↔
    (∀ r ∈ opcodeRows, w &&& r.mask ≠ r.value) ∨
    (w &&& 0x9F200000#32 = 0x8B000000#32 ∧ field w 22 2 = 0b11#2) ∨
    (w &&& 0x9FE00000#32 = 0x8B200000#32 ∧ 4 < (field w 10 3).toNat) ∨
    (w &&& 0xFFC00000#32 = 0xD3400000#32 ∧ field w 10 6 ≠ 63#6 ∧ field w 16 6 ≠ field w 10 6 + 1#6) ∨
    (w &&& 0xFF000010#32 = 0x54000000#32 ∧
      ¬ (field w 0 4 = 0b0000#4 ∨ field w 0 4 = 0b0001#4 ∨ field w 0 4 = 0b1010#4 ∨ field w 0 4 = 0b1011#4 ∨
        field w 0 4 = 0b1100#4 ∨ field w 0 4 = 0b1101#4))

/-- A `BITFIELD` word is classified by `immr` and `imms` (R97); `immr = 0, imms = 63` is `LSR #0`. -/
def Obligations.BitfieldClassification : Prop :=
  ∀ w : InstWord, w &&& 0xFFC00000#32 = 0xD3400000#32 →
    tagOfWord w =
      if (field w 10 6).toNat = 63 then .instr (.lsrI (field w 16 6) (field w 5 5) (field w 0 5))
      else if (field w 16 6).toNat = ((field w 10 6).toNat + 1) % 64 then
        .instr (.lslI (BitVec.ofNat 6 (63 - (field w 10 6).toNat)) (field w 5 5) (field w 0 5))
      else .unknown

/-! ### Operand forms -/

/-- `ShiftReg` (R98) and `ExtendReg(v, option) << imm3` (R99) as arithmetic on the operand's value. A shift is times a
power of two modulo `2^64`, a division by a power of two as an unsigned or a signed number, or a rotation of the bits; an
extension is the low 8, 16 or 32 bits as an unsigned or a signed number, or the whole word, and the left shift acts after
it. -/
def Obligations.RegisterOperandValues : Prop :=
  (∀ (v : Word) (s : BitVec 6),
    (shiftReg v .lsl s).toNat = v.toNat * 2 ^ s.toNat % 2 ^ 64 ∧
    (shiftReg v .lsr s).toNat = v.toNat / 2 ^ s.toNat ∧
    (shiftReg v .asr s).toInt = v.toInt / 2 ^ s.toNat ∧
    ∀ k < 64, (shiftReg v .ror s).getLsbD k = v.getLsbD ((k + s.toNat) % 64)) ∧
  (∀ (v : Word) (option : Extend) (k : BitVec 3),
    (extendReg v .uxtb).toNat = v.toNat % 2 ^ 8 ∧ (extendReg v .uxth).toNat = v.toNat % 2 ^ 16 ∧
    (extendReg v .uxtw).toNat = v.toNat % 2 ^ 32 ∧ extendReg v .uxtx = v ∧
    (extendReg v .sxtb).toInt = (v.toNat : Int).bmod (2 ^ 8) ∧ (extendReg v .sxth).toInt = (v.toNat : Int).bmod (2 ^ 16) ∧
    (extendReg v .sxtw).toInt = (v.toNat : Int).bmod (2 ^ 32) ∧ extendReg v .sxtx = v ∧
    (extendedOperand v option k).toNat = (extendReg v option).toNat * 2 ^ k.toNat % 2 ^ 64)

/-- The immediates of R92 to R96 as numbers: the add/subtract immediate is `imm12` or `4096 * imm12`, the load/store
offset is signed and unscaled, the branch offsets are signed multiples of 4, the move-wide immediate is `imm16` at one of
four places. -/
def Obligations.ImmediateValues : Prop :=
  (∀ (sh : BitVec 1) (imm12 : BitVec 12), (addSubImm sh imm12).toNat = imm12.toNat * 2 ^ (12 * sh.toNat)) ∧
  (∀ imm9 : BitVec 9, (loadStoreOffset imm9).toInt = imm9.toInt) ∧
  (∀ imm26 : BitVec 26, (branchOffset imm26).toInt = 4 * imm26.toInt) ∧
  (∀ imm19 : BitVec 19, (condBranchOffset imm19).toInt = 4 * imm19.toInt) ∧
  (∀ (hw : BitVec 2) (imm16 : BitVec 16), (moveWideImm hw imm16).toNat = imm16.toNat * 2 ^ (16 * hw.toNat))

/-! ### Registers and memory -/

/-- A register write stores the value in the named register unless it is index 31, and changes no other register and no
other component; index 31 always reads 0 (spec/10_state.md R21, R22). -/
def Obligations.RegisterWriteThenRead : Prop :=
  ∀ (s : State) (i j : Reg) (v : Word),
    s.reg 31#5 = 0#64 ∧ s.setReg 31#5 v = s ∧
    (s.setReg i v).reg j = (if j = i ∧ i ≠ 31#5 then v else s.reg j) ∧
    s.setReg i v = { s with x := (s.setReg i v).x }

/-- `MemRead` and `MemWrite` byte by byte (spec/20_memory.md R62 to R64): byte `k` of the value read is the byte at
`addr + k`, modulo `2^64`; a write of `n` bytes stores bytes `0 .. n-1` of the value and changes no other byte; byte `b` is
lane `b mod 4` of the aligned word that holds it, lane 0 in bits 7:0; a read after a write of the same width gives the
value's low bytes, and after an 8-byte write `MemRead(a+4, 4)` is the upper half. -/
def Obligations.MemoryAccessesAreByteExact : Prop :=
  ∀ (m : Memory) (a v : Word),
    (∀ n ∈ [1, 2, 4, 8],
      (∀ k < 8, (memRead m a n).extractLsb' (8 * k) 8 = if k < n then readByte m (a + BitVec.ofNat 64 k) else 0#8) ∧
      (∀ b : Word, readByte (memWrite m a v n) b =
        if (b - a).toNat < n then v.extractLsb' (8 * (b - a).toNat) 8 else readByte m b) ∧
      memRead (memWrite m a v n) a n = BitVec.ofNat 64 (v.toNat % 2 ^ (8 * n))) ∧
    readByte m a = (read32 m a).extractLsb' (8 * (a.toNat % 4)) 8 ∧
    memRead (memWrite m a v 8) (a + 4#64) 4 = (v.extractLsb' 32 32).setWidth 64

/-! ### Reset and initialisation -/

/-- What reset leaves (spec/70_reset_and_hazards.md R370): every component of the table at its value, the memory and the
configuration unchanged. -/
def Obligations.ResetValues : Prop :=
  ∀ s : State,
    (∀ r : Reg, (resetMachine s).reg r = 0#64) ∧ (resetMachine s).z = false ∧ (resetMachine s).n = false ∧
    (resetMachine s).pc = s.cfg.resetPc ∧ (resetMachine s).prev = ⟨none, none, none, none⟩ ∧
    (resetMachine s).halt = false ∧ (resetMachine s).runStop = false ∧
    (resetMachine s).ctl = ⟨false, false, false, false, none, none, none⟩ ∧
    (resetMachine s).bp.ghr = 0 ∧ (∀ i, (resetMachine s).bp.counter i = 0#2) ∧
    (∀ i, ((resetMachine s).bp.entry i).valid = false) ∧
    (∀ i, ∀ w ∈ setWays s.cfg.ic (resetMachine s).ic i, w.valid = false ∧ w.age = 0) ∧
    (∀ i, ∀ w ∈ setWays s.cfg.dc (resetMachine s).dc i, w.valid = false ∧ w.age = 0) ∧
    (resetMachine s).ic.fill = none ∧ (resetMachine s).dc.fill = none ∧
    (resetMachine s).cycles = 0#64 ∧ (resetMachine s).retired = 0#64 ∧ (resetMachine s).squashes = 0#64 ∧
    (resetMachine s).fault = none ∧ (resetMachine s).mem = s.mem ∧ (resetMachine s).cfg = s.cfg

/-- Initialisation answers a state exactly for the configurations R8 admits (spec/00_scope.md R8). -/
def Obligations.InitialisationRefusesInvalidConfigurations : Prop :=
  ∀ (c : Config) (m : Memory),
    ((∃ k, c.ic.block = 2 ^ k) ∧ (∃ k, c.ic.sets = 2 ^ k) ∧ (∃ k, c.dc.block = 2 ^ k) ∧ (∃ k, c.dc.sets = 2 ^ k) ∧
        4 ≤ c.ic.block ∧ 4 ≤ c.dc.block ∧ 1 ≤ c.ic.ways ∧ 1 ≤ c.dc.ways ∧ 1 ≤ c.ghrBits ∧ 1 ≤ c.btbBits ∧
        c.resetPc.toNat % 4 = 0 →
      initialise c m = some (resetMachine { State.reset with cfg := c, mem := m })) ∧
    (¬ ((∃ k, c.ic.block = 2 ^ k) ∧ (∃ k, c.ic.sets = 2 ^ k) ∧ (∃ k, c.dc.block = 2 ^ k) ∧ (∃ k, c.dc.sets = 2 ^ k) ∧
        4 ≤ c.ic.block ∧ 4 ≤ c.dc.block ∧ 1 ≤ c.ic.ways ∧ 1 ≤ c.dc.ways ∧ 1 ≤ c.ghrBits ∧ 1 ≤ c.btbBits ∧
        c.resetPc.toNat % 4 = 0) →
      initialise c m = none)

/-- The invariants below hold at reset. `State.reset` takes the default configuration and no memory image, the model's choice
(log entries 4 and 6). -/
def Obligations.ResetMeetsTheInvariants : Prop :=
  State.reset.mem.wf = true ∧ State.reset.pcAligned = true ∧ State.reset.lru = true ∧ State.reset.tagsDistinct = true ∧
  State.reset.operandsCoherent = true ∧ State.reset.noLoadAhead = true ∧ State.reset.haltDrains = true ∧
  State.reset.predictorWidths = true ∧ State.reset.atBoundary = true ∧ State.reset.running = true

/-! ### The cycle -/

/-- A cycle on a state with `RUN_STOP = 1` or `FAULT != none` changes nothing (spec/40_pipeline_engine.md R132). -/
def Obligations.StoppedMachineIsUnchanged : Prop :=
  ∀ s : State, s.runStop = true ∨ s.fault ≠ none → step s = .next s

/-- A fault undoes its cycle (spec/60_exceptions.md R351): the state after it is the state at the start of the cycle with
the record set, every later cycle is the identity, and reset clears the record. -/
def Obligations.FaultUndoesItsCycle : Prop :=
  ∀ (s t : State) (f : Fault), s.fault = none → step s = .next t → t.fault = some f →
    t = { s with fault := some f } ∧ step t = .next t ∧ (resetMachine t).fault = none

/-- The step is total and never stops the model: every cycle of every state, and every instruction in every stage,
answers a next state. This is the model's choice: that a fault is a next state with the record set is log entry 8 (DESIGN
CHOICE), that `exec` acts in one stage is log entry 7 (DESIGN CHOICE). -/
def Obligations.EveryStepAnswersNext : Prop :=
  (∀ s : State, ∃ t, step s = .next t) ∧ ∀ (i : Instr) (s : State), ∃ t, exec i s = .next t

/-- A STEP RUNS THE DECODED INSTRUCTION (spec/40_pipeline_engine.md R131): a cycle is the four stages in the order WB,
MEM, EX, DE, then fetch; the write-back, memory and execute stages are `exec` of the instruction in their latch with the
sequencer at that stage (the `stage` field is the model's, log entry 7); the decode stage is `exec` of the instruction the
word in IF→DE decodes to; and the fetch stage, where the bytes at `PC` decode to an instruction, latches the word that
decode will so decode. The four stages of an `UNKNOWN` micro-op are `execUnknown` in the same way (R102, R342). -/
def Obligations.StepRunsTheDecodedInstruction : Prop :=
  (∀ s : State, s.running = true → step s = settle s (andThen (writeBackStage s.atCycleStart) afterWriteBack)) ∧
  (∀ (m : State) (op : MicroOp) (i : Instr), m.prev.memwb = some op → op.tag = .instr i →
    writeBackStage m = exec i (m.atStage .wb)) ∧
  (∀ (m : State) (op : MicroOp) (i : Instr), m.prev.exmem = some op → op.tag = .instr i →
    afterWriteBack m = andThen (exec i (m.atStage .mem)) afterMemory) ∧
  (∀ (m : State) (op : MicroOp) (i : Instr), m.ctl.memStall = false → m.prev.deex = some op → op.tag = .instr i →
    afterMemory m = andThen (exec i (m.atStage .ex)) afterExecute) ∧
  (∀ (m : State) (op : MicroOp) (i : Instr), m.ctl.clearDecode = false → m.prev.ifde = some op →
    op.fetchFault = false → i.wellFormed = true → decode op.word = .instr i →
    afterExecute m = andThen (exec i (m.atStage .de)) afterDecode) ∧
  (∀ (m : State) (op : MicroOp), op.tag = .unknown →
    (m.prev.memwb = some op → writeBackStage m = execUnknown (m.atStage .wb)) ∧
    (m.prev.exmem = some op → afterWriteBack m = andThen (execUnknown (m.atStage .mem)) afterMemory) ∧
    (m.ctl.memStall = false → m.prev.deex = some op →
      afterMemory m = andThen (execUnknown (m.atStage .ex)) afterExecute)) ∧
  (∀ (m : State) (op : MicroOp), m.ctl.clearDecode = false → m.prev.ifde = some op → op.fetchFault = false →
    (∀ i, decode op.word ≠ .instr i) → afterExecute m = andThen (execUnknown (m.atStage .de)) afterDecode) ∧
  (∀ m : State, m.ctl.loadStall = false → afterDecode m = .next (endOfCycle (fetchStage m))) ∧
  (∀ (m : State) (i : Instr), m.halt = false → admitted m.cfg m.pc = true →
    (cacheAccess .instruction m.cfg.ic m.ic m.pc).2 = true → m.pc.toNat % 4 = 0 →
    decodeBytes [readByte m.mem m.pc, readByte m.mem (m.pc + 1#64), readByte m.mem (m.pc + 2#64),
      readByte m.mem (m.pc + 3#64)] = .instr i →
    ∃ op : MicroOp, (endOfCycle (fetchStage m)).prev.ifde = some op ∧ op.pc = m.pc ∧ op.fetchFault = false ∧
      decode op.word = .instr i)

/-! ### What each instruction does -/

/-- Decode of every instruction (spec/40_pipeline_engine.md R143 to R145): without a load-use hazard the micro-op passes
into DE→EX with its tag and its declared sources read, keeping what fetch recorded, and `HLT` sets `HALT`; with one,
decode raises `LOAD_STALL` and changes nothing else. -/
def Obligations.DecodeStageOfEveryInstruction : Prop :=
  ∀ (i : Instr) (s : State) (op : MicroOp), s.stage = .de → s.prev.ifde = some op →
    (loadUse (declared i) s.prev.deex = false →
      ∃ d : MicroOp,
        exec i s = .next { s with halt := s.halt || isHalt i, cur := { s.cur with deex := some d } } ∧
        d.tag = .instr i ∧ d.word = op.word ∧ d.pc = op.pc ∧ d.predPc = op.predPc ∧ d.btbMiss = op.btbMiss ∧
        d.phtIdx = op.phtIdx ∧
        (∀ r, (declared i).rn = some r → d.rnVal = s.reg r) ∧ (∀ r, (declared i).rm = some r → d.rmVal = s.reg r) ∧
        (∀ r, (declared i).rt = some r → d.rtVal = s.reg r)) ∧
    (loadUse (declared i) s.prev.deex = true → exec i s = .next { s with ctl := { s.ctl with loadStall := true } })

/-- Add and subtract immediate (spec/44_alu.md R271 to R275) with `imm = imm12` or `4096 * imm12`, as arithmetic modulo
`2^64`. -/
def Obligations.AddSubImmediateRuns : Prop :=
  ∀ (sh : BitVec 1) (imm12 : BitVec 12) (rn rd : Reg),
    RunsAlu (.addI sh imm12 rn rd) (some rn) none (some rd) false
      (fun a _ => BitVec.ofNat 64 (a.toNat + imm12.toNat * 2 ^ (12 * sh.toNat))) ∧
    RunsAlu (.addsI sh imm12 rn rd) (some rn) none (some rd) true
      (fun a _ => BitVec.ofNat 64 (a.toNat + imm12.toNat * 2 ^ (12 * sh.toNat))) ∧
    RunsAlu (.subI sh imm12 rn rd) (some rn) none (some rd) false
      (fun a _ => BitVec.ofInt 64 (a.toNat - (imm12.toNat * 2 ^ (12 * sh.toNat) : Nat))) ∧
    RunsAlu (.cmpI sh imm12 rn) (some rn) none none true
      (fun a _ => BitVec.ofInt 64 (a.toNat - (imm12.toNat * 2 ^ (12 * sh.toNat) : Nat))) ∧
    RunsAlu (.subsI sh imm12 rn rd) (some rn) none (some rd) true
      (fun a _ => BitVec.ofInt 64 (a.toNat - (imm12.toNat * 2 ^ (12 * sh.toNat) : Nat)))

/-- Add and subtract shifted register (spec/44_alu.md R276 to R281), as arithmetic modulo `2^64` on the shifted operand. -/
def Obligations.AddSubShiftedRuns : Prop :=
  ∀ (shift : ShiftType) (rm : Reg) (imm6 : BitVec 6) (rn rd : Reg),
    RunsAlu (.addSR shift rm imm6 rn rd) (some rn) (some rm) (some rd) false
      (fun a b => BitVec.ofNat 64 (a.toNat + (shiftReg b shift imm6).toNat)) ∧
    RunsAlu (.addsSR shift rm imm6 rn rd) (some rn) (some rm) (some rd) true
      (fun a b => BitVec.ofNat 64 (a.toNat + (shiftReg b shift imm6).toNat)) ∧
    RunsAlu (.subSR shift rm imm6 rn rd) (some rn) (some rm) (some rd) false
      (fun a b => BitVec.ofInt 64 (a.toNat - (shiftReg b shift imm6).toNat)) ∧
    RunsAlu (.cmpSR shift rm imm6 rn) (some rn) (some rm) none true
      (fun a b => BitVec.ofInt 64 (a.toNat - (shiftReg b shift imm6).toNat)) ∧
    RunsAlu (.subsSR shift rm imm6 rn rd) (some rn) (some rm) (some rd) true
      (fun a b => BitVec.ofInt 64 (a.toNat - (shiftReg b shift imm6).toNat))

/-- Add and subtract extended register (spec/44_alu.md R282 to R287), as arithmetic modulo `2^64` on the extended
operand. -/
def Obligations.AddSubExtendedRuns : Prop :=
  ∀ (rm : Reg) (option : Extend) (imm3 : BitVec 3) (rn rd : Reg),
    RunsAlu (.addER rm option imm3 rn rd) (some rn) (some rm) (some rd) false
      (fun a b => BitVec.ofNat 64 (a.toNat + (extendReg b option).toNat * 2 ^ imm3.toNat)) ∧
    RunsAlu (.addsER rm option imm3 rn rd) (some rn) (some rm) (some rd) true
      (fun a b => BitVec.ofNat 64 (a.toNat + (extendReg b option).toNat * 2 ^ imm3.toNat)) ∧
    RunsAlu (.subER rm option imm3 rn rd) (some rn) (some rm) (some rd) false
      (fun a b => BitVec.ofInt 64 (a.toNat - ((extendReg b option).toNat * 2 ^ imm3.toNat : Nat))) ∧
    RunsAlu (.cmpER rm option imm3 rn) (some rn) (some rm) none true
      (fun a b => BitVec.ofInt 64 (a.toNat - ((extendReg b option).toNat * 2 ^ imm3.toNat : Nat))) ∧
    RunsAlu (.subsER rm option imm3 rn rd) (some rn) (some rm) (some rd) true
      (fun a b => BitVec.ofInt 64 (a.toNat - ((extendReg b option).toNat * 2 ^ imm3.toNat : Nat)))

/-- The logical instructions (spec/44_alu.md R288 to R292); `ANDS` alone sets the flags. -/
def Obligations.LogicalRuns : Prop :=
  ∀ (shift : ShiftType) (rm : Reg) (imm6 : BitVec 6) (rn rd : Reg),
    RunsAlu (.andSR shift rm imm6 rn rd) (some rn) (some rm) (some rd) false (fun a b => a &&& shiftReg b shift imm6) ∧
    RunsAlu (.andsSR shift rm imm6 rn rd) (some rn) (some rm) (some rd) true (fun a b => a &&& shiftReg b shift imm6) ∧
    RunsAlu (.orrSR shift rm imm6 rn rd) (some rn) (some rm) (some rd) false (fun a b => a ||| shiftReg b shift imm6) ∧
    RunsAlu (.eorSR shift rm imm6 rn rd) (some rn) (some rm) (some rd) false (fun a b => a ^^^ shiftReg b shift imm6)

/-- Shifts by immediate, `MOVZ` and `MUL` (spec/44_alu.md R293 to R296), as arithmetic modulo `2^64`. -/
def Obligations.ShiftMoveMultiplyRuns : Prop :=
  ∀ (shamt : BitVec 6) (hw : BitVec 2) (imm16 : BitVec 16) (rm rn rd : Reg),
    RunsAlu (.lslI shamt rn rd) (some rn) none (some rd) false (fun a _ => BitVec.ofNat 64 (a.toNat * 2 ^ shamt.toNat)) ∧
    RunsAlu (.lsrI shamt rn rd) (some rn) none (some rd) false (fun a _ => BitVec.ofNat 64 (a.toNat / 2 ^ shamt.toNat)) ∧
    RunsAlu (.movz hw imm16 rd) none none (some rd) false
      (fun _ _ => BitVec.ofNat 64 (imm16.toNat * 2 ^ (16 * hw.toNat))) ∧
    RunsAlu (.mul rm rn rd) (some rn) (some rm) (some rd) false (fun a b => BitVec.ofNat 64 (a.toNat * b.toNat))

/-- The loads (spec/45_loadstore.md R300 to R304): the address, the zero-extended bytes, the miss, the address outside
`MEM_ADMIT`, and the register written. -/
def Obligations.LoadsRun : Prop :=
  ∀ (imm9 : BitVec 9) (rn rt : Reg),
    RunsLoad (.ldurX imm9 rn rt) 8 imm9 rn rt ∧ RunsLoad (.ldurW imm9 rn rt) 4 imm9 rn rt ∧
    RunsLoad (.ldurh imm9 rn rt) 2 imm9 rn rt ∧ RunsLoad (.ldurb imm9 rn rt) 1 imm9 rn rt

/-- The stores (spec/45_loadstore.md R300, R305 to R308): the address and data, the bytes stored and no other, the miss,
the address outside `MEM_ADMIT`, and no register written. -/
def Obligations.StoresRun : Prop :=
  ∀ (imm9 : BitVec 9) (rn rt : Reg),
    RunsStore (.sturX imm9 rn rt) 8 imm9 rn rt ∧ RunsStore (.sturW imm9 rn rt) 4 imm9 rn rt ∧
    RunsStore (.sturh imm9 rn rt) 2 imm9 rn rt ∧ RunsStore (.sturb imm9 rn rt) 1 imm9 rn rt

/-- `B` and `BR` (spec/46_branch.md R320 to R322, R332): always taken, to `pc + 4 * imm26` or to the forwarded register;
where that is a multiple of 4 the branch resolves. -/
def Obligations.UnconditionalBranchesRun : Prop :=
  ∀ (imm26 : BitVec 26) (rn : Reg),
    RunsBranch (.b imm26) false none none (fun pc _ => BitVec.ofInt 64 (pc.toNat + 4 * imm26.toInt)) (fun _ _ => true) ∧
    RunsBranch (.br rn) false (some rn) none (fun _ a => a) (fun _ _ => true)

/-- The conditional branches (spec/46_branch.md R323 to R332): the six conditions on the flags `BranchFlags()` gives, and
`CBZ` and `CBNZ` on the forwarded register; the target is `pc + 4 * imm19` whether or not the branch is taken. -/
def Obligations.ConditionalBranchesRun : Prop :=
  ∀ (imm19 : BitVec 19) (rt : Reg),
    RunsBranch (.bEQ imm19) true none none (fun pc _ => BitVec.ofInt 64 (pc.toNat + 4 * imm19.toInt))
      (fun s _ => decide (branchZ s = true)) ∧
    RunsBranch (.bNE imm19) true none none (fun pc _ => BitVec.ofInt 64 (pc.toNat + 4 * imm19.toInt))
      (fun s _ => decide (branchZ s = false)) ∧
    RunsBranch (.bGE imm19) true none none (fun pc _ => BitVec.ofInt 64 (pc.toNat + 4 * imm19.toInt))
      (fun s _ => decide (branchN s = false)) ∧
    RunsBranch (.bLT imm19) true none none (fun pc _ => BitVec.ofInt 64 (pc.toNat + 4 * imm19.toInt))
      (fun s _ => decide (branchN s = true)) ∧
    RunsBranch (.bGT imm19) true none none (fun pc _ => BitVec.ofInt 64 (pc.toNat + 4 * imm19.toInt))
      (fun s _ => decide (branchZ s = false ∧ branchN s = false)) ∧
    RunsBranch (.bLE imm19) true none none (fun pc _ => BitVec.ofInt 64 (pc.toNat + 4 * imm19.toInt))
      (fun s _ => decide (branchZ s = true ∨ branchN s = true)) ∧
    RunsBranch (.cbz imm19 rt) true none (some rt) (fun pc _ => BitVec.ofInt 64 (pc.toNat + 4 * imm19.toInt))
      (fun _ v => decide (v.toNat = 0)) ∧
    RunsBranch (.cbnz imm19 rt) true none (some rt) (fun pc _ => BitVec.ofInt 64 (pc.toNat + 4 * imm19.toInt))
      (fun _ v => decide (v.toNat ≠ 0))

/-- `HLT` and `UNKNOWN` (spec/47_halt_unknown.md R340 to R342): execute and memory pass the micro-op; write-back of `HLT`
sets `RUN_STOP`, that of `UNKNOWN` only counts it; `UNKNOWN` in decode never stalls and sets nothing. -/
def Obligations.HaltAndUnknownRun : Prop :=
  ∀ (imm16 : BitVec 16) (s : State) (op : MicroOp),
    (s.stage = .ex → s.prev.deex = some op →
      exec (.hlt imm16) s = .next { s with cur := { s.cur with exmem := some op } } ∧
      execUnknown s = .next { s with cur := { s.cur with exmem := some op } }) ∧
    (s.stage = .mem → s.prev.exmem = some op →
      exec (.hlt imm16) s = .next { s with cur := { s.cur with memwb := some op } } ∧
      execUnknown s = .next { s with cur := { s.cur with memwb := some op } }) ∧
    (s.stage = .wb → s.prev.memwb = some op →
      exec (.hlt imm16) s = .next { s with runStop := true, retired := s.retired + 1#64 } ∧
      execUnknown s = .next { s with retired := s.retired + 1#64 }) ∧
    (s.stage = .de → s.prev.ifde = some op →
      (∃ d : MicroOp, exec (.hlt imm16) s = .next { s with halt := true, cur := { s.cur with deex := some d } } ∧
        d.tag = .instr (.hlt imm16) ∧ d.pc = op.pc) ∧
      ∃ d : MicroOp, execUnknown s = .next { s with cur := { s.cur with deex := some d } } ∧
        d.tag = .unknown ∧ d.pc = op.pc)

/-- The faults of execute (spec/60_exceptions.md R352, R353): a declared source that is the destination of a load in
EX→MEM raises `ForwardFromLoad` for every instruction, before any other fault; `BR` to a register value that is not a
multiple of 4 raises `MisalignedTarget` (spec/46_branch.md R322); no other branch at a multiple of 4 raises it (R320). -/
def Obligations.ExecuteStageFaults : Prop :=
  (∀ (i : Instr) (s : State) (op : MicroOp), s.stage = .ex → s.prev.deex = some op →
    (notLoadedBy s.prev.exmem (declared i).rn = false ∨ notLoadedBy s.prev.exmem (declared i).rm = false ∨
      notLoadedBy s.prev.exmem (declared i).rt = false) →
    exec i s = .next { s with fault := some .forwardFromLoad }) ∧
  (∀ (rn : Reg) (s : State) (op : MicroOp), s.stage = .ex → s.prev.deex = some op →
    notLoadedBy s.prev.exmem (some rn) = true → (operandOf s.prev rn op.rnVal).toNat % 4 ≠ 0 →
    exec (.br rn) s = .next { s with fault := some .misalignedTarget }) ∧
  (∀ (i : Instr) (c : Bool) (s t : State) (op : MicroOp), s.stage = .ex → s.prev.deex = some op → s.fault = none →
    branchKind i = some c → (∀ rn, i ≠ .br rn) → op.pc.toNat % 4 = 0 → exec i s = .next t →
    t.fault ≠ some .misalignedTarget)

/-! ### Frames -/

/-- What no instruction changes, in any stage, when it answers a next state: registers but the declared destination in
write-back, the flags but for a flag-setting instruction in write-back, `RUN_STOP` and `HALT` but for `HLT`, the data cache
but for a load or store in the memory stage, and never `PC`, the predictor, the instruction cache, the configuration, the
latches being read, the cycle count or the squash count; and EVERY BYTE OF MEMORY keeps its value except, for a store of
`n` bytes in the memory stage, the `n` bytes from the effective address of its micro-op on (spec/20_memory.md R64). -/
def Obligations.InstructionFrame : Prop :=
  ∀ (i : Instr) (s t : State), exec i s = .next t →
    (∀ r : Reg, ¬ (s.stage = .wb ∧ (declared i).dst = some r) → t.reg r = s.reg r) ∧
    (¬ (s.stage = .wb ∧ (declared i).flags = true) → t.z = s.z ∧ t.n = s.n) ∧
    (¬ (s.stage = .wb ∧ isHalt i = true) → t.runStop = s.runStop) ∧
    (¬ (s.stage = .de ∧ isHalt i = true) → t.halt = s.halt) ∧
    (¬ (s.stage = .mem ∧ memKind i ≠ .none) → t.dc = s.dc) ∧
    (s.stage ≠ .wb → t.retired = s.retired) ∧
    t.pc = s.pc ∧ t.bp = s.bp ∧ t.ic = s.ic ∧ t.cfg = s.cfg ∧ t.prev = s.prev ∧ t.stage = s.stage ∧
    t.cycles = s.cycles ∧ t.squashes = s.squashes ∧
    ∀ b : Word,
      (∀ (op : MicroOp) (n : Nat), s.stage = .mem → s.prev.exmem = some op → memKind i = .store n →
        ¬ (b - op.memAddr).toNat < n) →
      readByte t.mem b = readByte s.mem b

/-! ### Hazards and forwarding -/

/-- The load-use detector (spec/41_hazards_forwarding.md R181, R184): it answers 1 exactly when the micro-op in execute is
one of the four loads, its `rt` is not 31, and `rt` is among the declared registers of the micro-op in decode. -/
def Obligations.LoadUseDetection : Prop :=
  ∀ (d : Declared) (e : Latch), loadUse d e = true ↔
    ∃ (op : MicroOp) (imm9 : BitVec 9) (rn rt : Reg), e = some op ∧
      (op.tag = .instr (.ldurX imm9 rn rt) ∨ op.tag = .instr (.ldurW imm9 rn rt) ∨
        op.tag = .instr (.ldurh imm9 rn rt) ∨ op.tag = .instr (.ldurb imm9 rn rt)) ∧
      rt ≠ 31#5 ∧ (d.rn = some rt ∨ d.rm = some rt ∨ d.rt = some rt ∨ d.dst = some rt)

/-- `FwdVal` and `Forward` (R186): the priority of EX→MEM over MEM→WB, the value each supplies, the zero register, the fault
on a load in EX→MEM, and every declared source passed through it. -/
def Obligations.ForwardingNetwork : Prop :=
  ∀ (L : Latches) (r : Reg) (v : Word) (d : Declared) (op : MicroOp),
    fwdVal L 31#5 v = .ok v ∧
    (r ≠ 31#5 → ∀ a, L.exmem = some a → a.tag.declared.dst = some r →
      (a.tag.declared.writes = .memVal → fwdVal L r v = .error .forwardFromLoad) ∧
      (a.tag.declared.writes = .result → fwdVal L r v = .ok a.result)) ∧
    (r ≠ 31#5 → writesReg L.exmem r = false → ∀ b, L.memwb = some b → b.tag.declared.dst = some r →
      (b.tag.declared.writes = .memVal → fwdVal L r v = .ok b.memVal) ∧
      (b.tag.declared.writes = .result → fwdVal L r v = .ok b.result)) ∧
    (writesReg L.exmem r = false → writesReg L.memwb r = false → fwdVal L r v = .ok v) ∧
    (notLoadedBy L.exmem d.rn = true → notLoadedBy L.exmem d.rm = true → notLoadedBy L.exmem d.rt = true →
      forward d L op = .ok (withSources d L op)) ∧
    (notLoadedBy L.exmem d.rn = false ∨ notLoadedBy L.exmem d.rm = false ∨ notLoadedBy L.exmem d.rt = false →
      forward d L op = .error .forwardFromLoad) ∧
    (notLoadedBy L.exmem (some r) = true → fwdVal L r v = .ok (operandOf L r v))

/-- The forwarding law, which the spec derives (R192), for one state: where the operands of DE→EX are coherent and no load is ahead, the forwarded
value of each declared source is the value the register holds once every older micro-op in flight has committed. -/
def Obligations.ForwardedOperandsAreCurrent : Prop :=
  ∀ (s : State) (op : MicroOp) (r : Reg), s.operandsCoherent = true → s.noLoadAhead = true → s.prev.deex = some op →
    (op.tag.declared.rn = some r → operandOf s.prev r op.rnVal = s.committedReg r) ∧
    (op.tag.declared.rm = some r → operandOf s.prev r op.rmVal = s.committedReg r) ∧
    (op.tag.declared.rt = some r → operandOf s.prev r op.rtVal = s.committedReg r)

/-- Flag forwarding (R190): after write-back of the same cycle, the flags a conditional branch in execute reads are those
once every older micro-op in flight has committed. -/
def Obligations.BranchFlagsAreCurrent : Prop :=
  ∀ (s m : State), writeBackStage s = .next m → (branchZ m, branchN m) = s.committedFlags

/-! ### Prediction -/

/-- `Predict` (spec/42_branch_predictor.md R213): the target of a matching entry when it is unconditional or its counter
is at least 2, and `pc + 4` otherwise; the miss bit; the index used. -/
def Obligations.PredictionRule : Prop :=
  ∀ (c : Config) (p : Predictor) (pc : Word),
    (predict c p pc).idx = phtIndex c pc p.ghr ∧
    ((p.entry (btbIndex c pc)).valid = true → (p.entry (btbIndex c pc)).tag = pc →
      (predict c p pc).btbMiss = false ∧
      ((p.entry (btbIndex c pc)).cond = false → (predict c p pc).next = (p.entry (btbIndex c pc)).target) ∧
      ((p.entry (btbIndex c pc)).cond = true → 2 ≤ (p.counter (phtIndex c pc p.ghr)).toNat →
        (predict c p pc).next = (p.entry (btbIndex c pc)).target) ∧
      ((p.entry (btbIndex c pc)).cond = true → (p.counter (phtIndex c pc p.ghr)).toNat < 2 →
        (predict c p pc).next = pc + 4#64)) ∧
    (¬ ((p.entry (btbIndex c pc)).valid = true ∧ (p.entry (btbIndex c pc)).tag = pc) →
      (predict c p pc).btbMiss = true ∧ (predict c p pc).next = pc + 4#64)

/-- The PHT index is the bitwise exclusive or of `pc[H+1:2]` and the history (R211), the BTB index is `pc[BTB_BITS+1:2]`
(R212); with `H = 8`, `pc = 0x400010` and `GHR = 0x05` the PHT index is `0x01`. Where `H` or `BTB_BITS` is above 62, that a
bit of the slice above bit 63 reads 0 is the model's choice (log entry 17, DESIGN CHOICE). -/
def Obligations.PredictorIndices : Prop :=
  (∀ (c : Config) (pc : Word) (ghr : Nat), ghr < 2 ^ c.ghrBits →
    phtIndex c pc ghr < 2 ^ c.ghrBits ∧
    ∀ k < c.ghrBits, (phtIndex c pc ghr).testBit k = (pc.getLsbD (k + 2) ^^ ghr.testBit k)) ∧
  (∀ (c : Config) (pc : Word),
    btbIndex c pc < 2 ^ c.btbBits ∧ ∀ k < c.btbBits, (btbIndex c pc).testBit k = pc.getLsbD (k + 2)) ∧
  phtIndex Config.default 0x400010#64 5 = 1

/-- The saturating counter (R217) and the history shift (R218). -/
def Obligations.CounterAndHistoryUpdate : Prop :=
  (∀ k : Counter, (bump k true).toNat = min (k.toNat + 1) 3 ∧ (bump k false).toNat = k.toNat - 1) ∧
  (∀ (c : Config) (ghr : Nat) (taken : Bool),
    shiftHistory c ghr taken = ((ghr <<< 1) ||| taken.toNat) % 2 ^ c.ghrBits)

/-! ### Caches -/

/-- `CacheAccess` (spec/43_cache.md R243, R245, R246, R249 to R251): the fill of the same block makes any access wait and
changes nothing; another block's fill makes a data access wait and is cancelled by an instruction access; then a matching
valid way hits and is touched, no other set changing, a miss with penalty 0 installs the block and hits, and any other miss
starts the fill and stalls with the ways unchanged. What `touch` and `install` do to a set is in `RecencyAndVictim`. -/
def Obligations.CacheAccessRule : Prop :=
  ∀ (k : CacheKind) (g : CacheGeometry) (c : Cache) (a : Word),
    (∀ f, c.fill = some f → f.block = blockOf g a.toNat → cacheAccess k g c a = (c, false)) ∧
    (∀ f, c.fill = some f → f.block ≠ blockOf g a.toNat →
      cacheAccess .data g c a = (c, false) ∧
      cacheAccess .instruction g c a = cacheAccess .instruction g { c with fill := none } a) ∧
    (c.fill = none →
      ((∃ w ∈ setWays g c (setIndexOf g a.toNat), w.valid = true ∧ w.tag = tagOf g a.toNat) →
        (cacheAccess k g c a).2 = true ∧ (cacheAccess k g c a).1.fill = none ∧
        (∃ (w : Nat) (v : Way), (setWays g c (setIndexOf g a.toNat))[w]? = some v ∧ v.valid = true ∧
          v.tag = tagOf g a.toNat ∧
          setWays g (cacheAccess k g c a).1 (setIndexOf g a.toNat) =
            touch g (tagOf g a.toNat) (setWays g c (setIndexOf g a.toNat)) w) ∧
        ∀ j, j ≠ setIndexOf g a.toNat → setWays g (cacheAccess k g c a).1 j = setWays g c j) ∧
      (¬ (∃ w ∈ setWays g c (setIndexOf g a.toNat), w.valid = true ∧ w.tag = tagOf g a.toNat) →
        (g.penalty = 0 → cacheAccess k g c a = (install g c (blockOf g a.toNat), true)) ∧
        (g.penalty ≠ 0 →
          cacheAccess k g c a = ({ c with fill := some ⟨blockOf g a.toNat, g.penalty⟩ }, false))))

/-- `Touch`, the victim and `Install` (R244, R248) on a set that meets the recency invariant: the touched way becomes age 0
with its tag; if it was valid the ways younger than it age by one and the others keep their age, if it was invalid every
valid way ages by one; the victim is the lowest-numbered invalid way, or with none the one way of age `C_WAYS - 1`; and
`Install` touches the victim of the block's set with the block's tag and changes no other set. -/
def Obligations.RecencyAndVictim : Prop :=
  ∀ (g : CacheGeometry) (ws : List Way), setLru g ws = true →
    (∀ (w : Nat) (v : Way) (t : Nat), ws[w]? = some v → v.valid = true →
      (touch g t ws w)[w]? = some ⟨true, t, 0⟩ ∧
      ∀ (j : Nat) (u : Way), j ≠ w → ws[j]? = some u →
        (touch g t ws w)[j]? =
          some (if u.valid = true ∧ u.age < v.age then { u with age := u.age + 1 } else u)) ∧
    (∀ (w : Nat) (v : Way) (t : Nat), ws[w]? = some v → v.valid = false →
      (touch g t ws w)[w]? = some ⟨true, t, 0⟩ ∧
      ∀ (j : Nat) (u : Way), j ≠ w → ws[j]? = some u →
        (touch g t ws w)[j]? = some (if u.valid = true then { u with age := u.age + 1 } else u)) ∧
    (∀ (c : Cache) (b : Nat), setWays g c (setIndexOf g b) = ws →
      setWays g (install g c b) (setIndexOf g b) = touch g (tagOf g b) ws (victim ws) ∧
      (∀ j, j ≠ setIndexOf g b → setWays g (install g c b) j = setWays g c j) ∧ (install g c b).fill = c.fill) ∧
    ((∃ u ∈ ws, u.valid = false) →
      (∃ u, ws[victim ws]? = some u ∧ u.valid = false) ∧
      ∀ j < victim ws, ∀ u, ws[j]? = some u → u.valid = true) ∧
    ((∀ u ∈ ws, u.valid = true) → 1 ≤ g.ways →
      ∀ (j : Nat) (u : Way), ws[j]? = some u → (u.age = g.ways - 1 ↔ j = victim ws))

/-- A miss completes after the miss penalty (R245 to R247): the access that misses stalls, the block's accesses stall
after every tick before the last, and after `C_MISS_PENALTY` ticks the block is installed and the access hits. -/
def Obligations.MissCompletesAfterPenalty : Prop :=
  ∀ (k : CacheKind) (g : CacheGeometry) (c : Cache) (a : Word),
    g.valid = true → c.lru g = true → c.fill = none → g.penalty ≠ 0 →
    (∀ w ∈ setWays g c (setIndexOf g a.toNat), ¬ (w.valid = true ∧ w.tag = tagOf g a.toNat)) →
    (cacheAccess k g c a).2 = false ∧
    (∀ n < g.penalty, (cacheAccess k g (ticks g n (cacheAccess k g c a).1) a).2 = false) ∧
    (ticks g g.penalty (cacheAccess k g c a).1).fill = none ∧
    (cacheAccess k g (ticks g g.penalty (cacheAccess k g c a).1) a).2 = true

/-! ### Cycles -/

/-- The cycle of a machine whose latches are all bubbles (R146 to R149, R213, R214): fetch alone acts. -/
def Obligations.FetchCycle : Prop :=
  ∀ s : State, s.running = true → s.prev = ⟨none, none, none, none⟩ →
    ∃ (f : Latch) (next : Word) (ic : Cache),
      step s = .next { s with
        pc := next
        prev := ⟨f, none, none, none⟩
        cur := ⟨f, none, none, none⟩
        stage := .wb
        ctl := Control.cleared
        ic := ic
        dc := tickFill s.cfg.dc s.dc
        cycles := s.cycles + 1#64 } ∧
      (s.halt = true → f = none ∧ next = s.pc ∧ ic = tickFill s.cfg.ic s.ic) ∧
      (s.halt = false → admitted s.cfg s.pc = false →
        next = s.pc ∧ ic = tickFill s.cfg.ic s.ic ∧ ∃ op, f = some op ∧ op.pc = s.pc ∧ op.fetchFault = true) ∧
      (s.halt = false → admitted s.cfg s.pc = true →
        ic = (cacheAccess .instruction s.cfg.ic (tickFill s.cfg.ic s.ic) s.pc).1 ∧
        ((cacheAccess .instruction s.cfg.ic (tickFill s.cfg.ic s.ic) s.pc).2 = false → f = none ∧ next = s.pc) ∧
        ((cacheAccess .instruction s.cfg.ic (tickFill s.cfg.ic s.ic) s.pc).2 = true →
          next = (predict s.cfg s.bp s.pc).next ∧
          ∃ op, f = some op ∧ op.pc = s.pc ∧ op.word = read32 s.mem s.pc ∧ op.fetchFault = false ∧
            op.predPc = next ∧ op.btbMiss = (predict s.cfg s.bp s.pc).btbMiss ∧
            op.phtIdx = (predict s.cfg s.bp s.pc).idx))

/-- The load-use stall cycle (R145, R182): a bubble into DE→EX, IF→DE and `PC` held, no instruction-cache access, the load
moved on; and the detector answers 0 in the next cycle. -/
def Obligations.LoadUseStallCycle : Prop :=
  ∀ (s : State) (op : MicroOp), s.running = true → s.noLoadAhead = true → s.memoryOutcome = .done →
    s.prev.ifde = some op → op.fetchFault = false → loadUse (tagOfWord op.word).declared s.prev.deex = true →
    ∃ t : State, step s = .next t ∧ t.fault = none ∧ t.prev.deex = none ∧ t.prev.ifde = some op ∧ t.pc = s.pc ∧
      t.ic = tickFill s.cfg.ic s.ic ∧ t.bp = s.bp ∧ t.halt = s.halt ∧ t.squashes = s.squashes ∧
      t.cycles = s.cycles + 1#64 ∧ t.prev.exmem.map (·.tag) = s.prev.deex.map (·.tag) ∧
      ∀ d : Declared, loadUse d t.prev.deex = false

/-- The freeze cycle of a data-cache stall (R137, R139, R191): a bubble into MEM→WB, EX→MEM, IF→DE and `PC` held, DE→EX
held with its operands refreshed, and no predictor, squash, `HALT`, memory or instruction-cache effect. -/
def Obligations.FreezeCycle : Prop :=
  ∀ s : State, s.running = true → s.noLoadAhead = true → s.memoryOutcome = .waits →
    ∃ t : State, step s = .next t ∧ t.fault = none ∧
      t.prev = ⟨s.prev.ifde, s.prev.deex.map (fun op => withSources op.tag.declared s.prev op), s.prev.exmem, none⟩ ∧
      t.pc = s.pc ∧ t.bp = s.bp ∧ t.halt = s.halt ∧ t.mem = s.mem ∧ t.squashes = s.squashes ∧
      t.ic = tickFill s.cfg.ic s.ic ∧ t.cycles = s.cycles + 1#64

/-- The cycle in which a branch resolves (R140, R142, R148, R219 to R225): the predictor takes the update of that branch
and no other, and on a mis-prediction the next PC is the resolved one, the younger micro-ops become bubbles, `HALT` is
untouched and the squash counts; a correct prediction does not squash. A mis-prediction to a multiple of 4 does not fault,
whatever micro-op it discards, a fetch-fault one included (R142, spec/47_halt_unknown.md R343). -/
def Obligations.BranchResolutionCycle : Prop :=
  (∀ (s : State) (next : Word), s.running = true → s.memoryOutcome = .done → s.noLoadAhead = true →
    s.squashesTo next = true →
    ∃ t : State, step s = .next t ∧ t.fault = none ∧ t.pc = next ∧ t.prev.ifde = none ∧ t.prev.deex = none ∧
      t.halt = s.halt ∧ t.squashes = s.squashes + 1#64) ∧
  ∀ (s t : State) (op : MicroOp) (c : Bool), s.running = true → s.memoryOutcome = .done →
    s.branchInExecute = some (op, c) → step s = .next t → t.fault = none →
    ∃ o : MicroOp, t.prev.exmem = some o ∧ o.tag = op.tag ∧ o.pc = op.pc ∧ o.predPc = op.predPc ∧
      (∀ j, t.bp.entry j = if j = btbIndex s.cfg op.pc then ⟨true, op.pc, o.target, c⟩ else s.bp.entry j) ∧
      (∀ j, (t.bp.counter j).toNat =
        if c = true ∧ j = op.phtIdx then
          (if o.taken = true then min ((s.bp.counter j).toNat + 1) 3 else (s.bp.counter j).toNat - 1)
        else (s.bp.counter j).toNat) ∧
      t.bp.ghr = (if c = true then ((s.bp.ghr <<< 1) ||| o.taken.toNat) % 2 ^ s.cfg.ghrBits else s.bp.ghr) ∧
      (op.predPc ≠ resolvedPc o →
        t.pc = resolvedPc o ∧ t.prev.ifde = none ∧ t.prev.deex = none ∧ t.halt = s.halt ∧
        t.squashes = s.squashes + 1#64) ∧
      (op.predPc = resolvedPc o → t.squashes = s.squashes)

/-- Nothing but a branch in execute, in a cycle that does not freeze, changes the predictor or squashes (R221, R225,
R226). -/
def Obligations.OnlyBranchesTrainThePredictor : Prop :=
  ∀ s t : State, s.running = true → step s = .next t → (s.memoryOutcome ≠ .done ∨ s.branchInExecute = none) →
    t.bp = s.bp ∧ t.squashes = s.squashes

/-- What a cycle commits (R134, R149): the registers, the flags, `RUN_STOP` and the counts of every cycle without a fault
are those of the micro-op in MEM→WB. The spec derives the rest: that nothing else of the cycle changes them (from R131), and
that the state the later stages of the same cycle read already has these registers and flags (R134, R193). -/
def Obligations.OnlyWriteBackCommits : Prop :=
  ∀ s t : State, s.running = true → step s = .next t → t.fault = none →
    t.cycles = s.cycles + 1#64 ∧ t.cfg = s.cfg ∧
    (s.prev.memwb = none → t.x = s.x ∧ t.z = s.z ∧ t.n = s.n ∧ t.runStop = false ∧ t.retired = s.retired) ∧
    (∀ op, s.prev.memwb = some op →
      (∀ r : Reg, t.reg r =
        if writesReg (some op) r = true ∧ r ≠ 31#5 then supplied op else s.reg r) ∧
      t.z = (if op.tag.declared.flags = true then op.fz else s.z) ∧
      t.n = (if op.tag.declared.flags = true then op.fn else s.n) ∧
      (t.runStop = true ↔ ∃ imm16, op.tag = .instr (.hlt imm16)) ∧
      t.retired = s.retired + 1#64) ∧
    ∀ m : State, writeBackStage s.atCycleStart = .next m → m.x = t.x ∧ m.z = t.z ∧ m.n = t.n

/-- What a cycle writes to memory (R136, R137; spec/20_memory.md R64, R71): the bytes of the store in EX→MEM, in the cycle
its access completes, and nothing else. -/
def Obligations.OnlyStoresWriteMemory : Prop :=
  ∀ s t : State, s.running = true → step s = .next t → t.fault = none → ∀ b : Word,
    (∀ (op : MicroOp) (i : Instr) (n : Nat), s.prev.exmem = some op → op.tag = .instr i → memKind i = .store n →
      s.memoryOutcome = .done →
      readByte t.mem b =
        if (b - op.memAddr).toNat < n then op.memVal.extractLsb' (8 * (b - op.memAddr).toNat) 8 else readByte s.mem b) ∧
    ((∀ (op : MicroOp) (i : Instr) (n : Nat), s.prev.exmem = some op → op.tag = .instr i → memKind i ≠ .store n) ∨
        s.memoryOutcome ≠ .done →
      readByte t.mem b = readByte s.mem b)

/-- The cycles that fault, and with which record (spec/60_exceptions.md R351 to R353): an inadmissible data access
whatever the other stages would do; a load ahead whose register the micro-op in DE→EX needs, in a freeze as well; then a
misaligned `BR`; then a fetch-fault micro-op that decode consumes, execute neither squashing nor faulting; and of the cycles
that reach decode no other faults. -/
def Obligations.FaultingCycles : Prop :=
  ∀ s : State, s.running = true →
    (s.memoryOutcome = .faults → step s = .next { s with fault := some .dataNotAdmitted }) ∧
    (∀ (op : MicroOp) (rn : Reg), s.memoryOutcome = .done → s.noLoadAhead = true → s.prev.deex = some op →
      op.tag = .instr (.br rn) → (operandOf s.prev rn op.rnVal).toNat % 4 ≠ 0 →
      step s = .next { s with fault := some .misalignedTarget }) ∧
    (s.memoryOutcome ≠ .faults → s.noLoadAhead = false → step s = .next { s with fault := some .forwardFromLoad }) ∧
    (∀ op : MicroOp, s.memoryOutcome = .done → s.noLoadAhead = true → s.executePasses = true → s.prev.ifde = some op →
      op.fetchFault = true → step s = .next { s with fault := some .fetchNotAdmitted }) ∧
    (s.memoryOutcome = .done → s.noLoadAhead = true → s.executePasses = true →
      (∀ op : MicroOp, s.prev.ifde = some op → op.fetchFault = false) → ∃ t, step s = .next t ∧ t.fault = none)

/-- Fetch coherence (spec/20_memory.md R74, spec/45_loadstore.md R311): a word fetched in a cycle that neither freezes nor
squashes nor stalls for a load is the memory's after the store that completes in that cycle, with the prediction of the
predictor as the cycle found it, and `PC` takes the predicted next PC (spec/40_pipeline_engine.md R148). Such a cycle latches
such a word where nothing has halted the fetch, the address is admitted and the instruction cache hits. -/
def Obligations.FetchSeesTheStoreOfItsCycle : Prop :=
  (∀ (s t : State) (f : MicroOp), s.running = true → s.memoryOutcome = .done → s.executePasses = true →
    s.decodePasses = true → step s = .next t → t.fault = none → t.prev.ifde = some f → f.fetchFault = false →
    f.pc = s.pc ∧ f.word = read32 t.mem s.pc ∧ t.pc = (predict s.cfg s.bp s.pc).next ∧ f.predPc = t.pc ∧
      f.btbMiss = (predict s.cfg s.bp s.pc).btbMiss ∧ f.phtIdx = (predict s.cfg s.bp s.pc).idx) ∧
  (∀ s : State, s.running = true → s.memoryOutcome = .done → s.noLoadAhead = true → s.executePasses = true →
    s.decodePasses = true → s.halt = false → s.haltInDecode = false → admitted s.cfg s.pc = true →
    (cacheAccess .instruction s.cfg.ic (tickFill s.cfg.ic s.ic) s.pc).2 = true →
    ∃ (t : State) (f : MicroOp), step s = .next t ∧ t.fault = none ∧ t.prev.ifde = some f ∧ f.fetchFault = false ∧
      f.pc = s.pc ∧ t.prev.deex.map (·.word) = s.prev.ifde.map (·.word) ∧
      t.prev.exmem.map (·.tag) = s.prev.deex.map (·.tag))

/-! ### Invariants -/

/-- The memory keeps its canonical form, which is the model's own representation (log entry 2). -/
def Obligations.MemoryStaysCanonical : Prop :=
  ∀ s t : State, s.mem.wf = true → step s = .next t → t.mem.wf = true

/-- `PC` is always a multiple of 4, which the spec derives (spec/10_state.md R24), with the micro-ops in flight and the BTB targets that make it
so. -/
def Obligations.PcStaysAligned : Prop :=
  ∀ s t : State, s.pcAligned = true → step s = .next t → t.pcAligned = true ∧ t.pc.toNat % 4 = 0

/-- In every set of both caches the valid ways hold the distinct ages `0 .. k-1`, and at most one way of a set holds a tag:
the two invariants the spec derives (spec/43_cache.md R242, R243). -/
def Obligations.CachesStayWellFormed : Prop :=
  (∀ s t : State, s.lru = true → step s = .next t → t.lru = true) ∧
  (∀ s t : State, s.tagsDistinct = true → step s = .next t → t.tagsDistinct = true)

/-- The operands held in DE→EX stay coherent with the register file and the micro-ops ahead: the inference behind the law
the spec derives in spec/41_hazards_forwarding.md R192, through the decode read and the refresh of a freeze (R191). -/
def Obligations.OperandsStayCoherent : Prop :=
  ∀ s t : State, s.operandsCoherent = true → step s = .next t → t.operandsCoherent = true

/-- No micro-op in execute reads the destination of the load in the memory stage, which the spec derives (R189), so no cycle
that starts so raises `ForwardFromLoad` (R352). -/
def Obligations.NoLoadIsForwardedFrom : Prop :=
  ∀ s t : State, s.noLoadAhead = true → step s = .next t →
    t.noLoadAhead = true ∧ (s.running = true → t.fault ≠ some .forwardFromLoad)

/-- Once `HALT` is set no micro-op is left in or enters IF→DE, the inference behind the drain the spec derives
(spec/40_pipeline_engine.md R146, R153), and `HALT` stays set. -/
def Obligations.HaltDrains : Prop :=
  ∀ s t : State, s.haltDrains = true → step s = .next t →
    t.haltDrains = true ∧ (s.halt = true → t.halt = true ∧ t.prev.ifde = none)

/-- The history and the PHT indices stay `H` bits wide and the BTB indices `BTB_BITS` (spec/10_state.md R31 to R33). The
index of a fetch-fault micro-op is the model's 0 (log entry 5, DESIGN CHOICE). -/
def Obligations.PredictorWidthsStay : Prop :=
  ∀ s t : State, s.predictorWidths = true → step s = .next t → t.predictorWidths = true

/-! ### Whole runs of one instruction -/

/-- The first fetch after reset, which the spec derives (spec/70_reset_and_hazards.md R372): with both caches empty it misses, and the word at
`RESET_PC` leaves fetch in cycle `1 + IC_MISS_PENALTY`. -/
def Obligations.FirstFetchAfterReset : Prop :=
  ∀ (c : Config) (m : Memory), c.valid = true → admitted c c.resetPc = true →
    (∀ k ≤ c.ic.penalty, ∃ t, drive k (State.initial c m) = .next t ∧ t.prev.ifde = none ∧ t.pc = c.resetPc) ∧
    ∃ (t : State) (f : MicroOp), drive (1 + c.ic.penalty) (State.initial c m) = .next t ∧ t.prev.ifde = some f ∧
      f.pc = c.resetPc ∧ f.word = read32 m c.resetPc ∧ t.pc = c.resetPc + 4#64

/-- REFINEMENT (the spec derives it, spec/41_hazards_forwarding.md R192, spec/70_reset_and_hazards.md R374): an instruction that is no branch,
alone in the pipeline, leaves after four cycles the registers, flags, memory and run-stop condition of running it by
itself; a load or store does so where its access is admitted and hits. Running it by itself is `seqExec`, the model's
reading of what the spec calls sequential execution (log entry 16, DEDUCED). -/
def Obligations.LoneInstructionMatchesSequential : Prop :=
  ∀ (s : State) (op : MicroOp) (i : Instr), s.alone op 4 = true → decode op.word = .instr i → branchKind i = none →
    (∀ n, memKind i = .load n ∨ memKind i = .store n →
      accessAdmitted s.cfg (s.reg (field op.word 5 5) + loadStoreOffset (field op.word 12 9)) n = true ∧
      s.dataHits (s.reg (field op.word 5 5) + loadStoreOffset (field op.word 12 9)) = true) →
    ∃ t : State, drive 4 s = .next t ∧ t.fault = none ∧ t.x = (seqExec i op.pc s).1.x ∧
      t.z = (seqExec i op.pc s).1.z ∧ t.n = (seqExec i op.pc s).1.n ∧ t.mem = (seqExec i op.pc s).1.mem ∧
      t.runStop = (seqExec i op.pc s).1.runStop ∧ t.retired = s.retired + 1#64 ∧ t.cycles = s.cycles + 4#64 ∧
      t.prev.memwb = none

/-- REFINEMENT for the branches (spec/46_branch.md R320, R332): a branch alone in the pipeline, predicted to `PC`, leaves
after two cycles the address of the next instruction in `PC`, whether the prediction was right or not, and changes no
register, flag or memory. The next address is that of `seqExec`, the model's reading of what the spec calls sequential
execution (log entry 16, DEDUCED). -/
def Obligations.LoneBranchMatchesSequential : Prop :=
  ∀ (s : State) (op : MicroOp) (i : Instr) (c : Bool), s.alone op 2 = true → s.pc = op.predPc →
    decode op.word = .instr i → branchKind i = some c → (seqExec i op.pc s).2.toNat % 4 = 0 →
    ∃ t : State, drive 2 s = .next t ∧ t.fault = none ∧ t.pc = (seqExec i op.pc s).2 ∧ t.x = s.x ∧ t.z = s.z ∧
      t.n = s.n ∧ t.mem = s.mem ∧
      (op.predPc ≠ (seqExec i op.pc s).2 → t.squashes = s.squashes + 1#64) ∧
      (op.predPc = (seqExec i op.pc s).2 → t.squashes = s.squashes)

end
end

