-- ==== Sys2Proof/Laws/Table.lean ====
section
/-! SUPPORT. The laws of tables held by key. -/

namespace Sys2Proof.Machine

variable {β : Type}

theorem tableFind_insert_same (t : Table β) (a : Nat) (v : β) : tableFind (tableInsert t a v) a = some v := by
  induction t with
  | nil => simp [tableInsert, tableFind]
  | cons e t ih =>
    obtain ⟨k, w⟩ := e
    unfold tableInsert
    split
    · simp [tableFind]
    · split
      · simp [tableFind]
      · rename_i h1 _; simp [tableFind, h1, ih]

theorem tableFind_insert_other (t : Table β) {a b : Nat} (h : b ≠ a) (v : β) :
    tableFind (tableInsert t a v) b = tableFind t b := by
  induction t with
  | nil => simp [tableInsert, tableFind, h]
  | cons e t ih =>
    obtain ⟨k, w⟩ := e
    unfold tableInsert
    split
    · rename_i h1; subst h1; simp [tableFind, h]
    · split
      · simp [tableFind, h]
      · simp only [tableFind, ih]

theorem tableFind_erase_same (t : Table β) (a : Nat) : tableFind (tableErase t a) a = none := by
  induction t with
  | nil => rfl
  | cons e t ih =>
    obtain ⟨k, w⟩ := e
    by_cases h : k = a
    · subst h; simpa [tableErase] using ih
    · have h' : ¬ a = k := fun e => h e.symm
      simp [tableErase, h, tableFind, h'] at ih ⊢
      exact ih

theorem tableFind_erase_other (t : Table β) {a b : Nat} (h : b ≠ a) :
    tableFind (tableErase t a) b = tableFind t b := by
  induction t with
  | nil => rfl
  | cons e t ih =>
    obtain ⟨k, w⟩ := e
    by_cases hk : k = a
    · subst hk
      simp [tableErase, tableFind, h] at ih ⊢
      exact ih
    · simp [tableErase, hk, tableFind] at ih ⊢
      rw [ih]

/-- All that a put can do to a table with a default. -/
theorem tableGet_put [DecidableEq β] (d : β) (t : Table β) (a b : Nat) (v : β) :
    tableGet d (tablePut d t a v) b = if b = a then v else tableGet d t b := by
  unfold tableGet tablePut
  by_cases hv : v = d
  · subst hv
    by_cases hb : b = a
    · subst hb; simp [tableFind_erase_same]
    · simp [hb, tableFind_erase_other t hb]
  · by_cases hb : b = a
    · subst hb; simp [hv, tableFind_insert_same]
    · simp [hv, hb, tableFind_insert_other t hb]

/-! ### The canonical form -/

theorem tableSortedFrom_some_of_lt {lo lo' : Nat} (h : lo ≤ lo') {t : Table β}
    (ht : tableSortedFrom (some lo') t = true) : tableSortedFrom (some lo) t = true := by
  cases t with
  | nil => rfl
  | cons e t =>
    obtain ⟨k, w⟩ := e
    simp [tableSortedFrom] at ht ⊢
    exact ⟨by omega, ht.2⟩

theorem tableSortedFrom_insert {lo : Nat} {t : Table β} {a : Nat} (ha : lo < a) (v : β)
    (ht : tableSortedFrom (some lo) t = true) : tableSortedFrom (some lo) (tableInsert t a v) = true := by
  induction t generalizing lo with
  | nil => simp [tableInsert, tableSortedFrom, ha]
  | cons e t ih =>
    obtain ⟨k, w⟩ := e
    simp [tableSortedFrom] at ht
    unfold tableInsert
    split
    · rename_i h1; subst h1; simp [tableSortedFrom, ht]
    · split
      · rename_i h2; simp [tableSortedFrom, ha, h2, ht]
      · rename_i h1 h2
        simp only [tableSortedFrom, Bool.and_eq_true, decide_eq_true_eq]
        exact ⟨ht.1, ih (by omega) ht.2⟩

/-- An insertion keeps the canonical form. -/
theorem tableSorted_insert {t : Table β} (a : Nat) (v : β) (ht : tableSorted t = true) :
    tableSorted (tableInsert t a v) = true := by
  cases t with
  | nil => rfl
  | cons e t =>
    obtain ⟨k, w⟩ := e
    simp only [tableSorted, tableSortedFrom] at ht ⊢
    unfold tableInsert
    split
    · rename_i h1; subst h1; simpa [tableSortedFrom] using ht
    · split
      · rename_i h2; simp [tableSortedFrom, h2, ht]
      · rename_i h1 h2
        simp only [tableSortedFrom]
        exact tableSortedFrom_insert (by omega) v ht

theorem all_insert (p : Nat × β → Bool) (t : Table β) (a : Nat) (v : β) (ht : t.all p = true) (hv : p (a, v) = true) :
    (tableInsert t a v).all p = true := by
  induction t with
  | nil => simp [tableInsert, hv]
  | cons e t ih =>
    obtain ⟨k, w⟩ := e
    simp only [List.all_cons, Bool.and_eq_true] at ht
    unfold tableInsert
    split
    · simp only [List.all_cons, Bool.and_eq_true]; exact ⟨hv, ht.2⟩
    · split
      · simp only [List.all_cons, Bool.and_eq_true]; exact ⟨hv, ht.1, ht.2⟩
      · simp only [List.all_cons, Bool.and_eq_true]; exact ⟨ht.1, ih ht.2⟩

theorem mem_of_tableFind {t : Table β} {a : Nat} {v : β} (h : tableFind t a = some v) : (a, v) ∈ t := by
  induction t with
  | nil => simp [tableFind] at h
  | cons e t ih =>
    obtain ⟨k, w⟩ := e
    unfold tableFind at h
    split at h
    · rename_i hk; subst hk; simp_all
    · exact List.mem_cons_of_mem _ (ih h)

end Sys2Proof.Machine
end

