-- ==== Sys2Proof/Laws/Cache.lean ====
section
/-! SUPPORT. What the cache operations can do (spec/43_cache.md): reading the ways of a set after a write, the cases of an
access and of a tick, and what a touch leaves of each way. -/

namespace Sys2Proof.Machine

/-- All that replacing a set can do to the sets. -/
theorem setWays_putWays (g : CacheGeometry) (c : Cache) (i j : Nat) (ws : List Way) :
    setWays g (c.putWays g i ws) j = if j = i then ws else setWays g c j := by
  unfold setWays Cache.putWays
  exact tableGet_put _ _ _ _ _

@[simp] theorem Cache.putWays_fill (g : CacheGeometry) (c : Cache) (i : Nat) (ws : List Way) :
    (c.putWays g i ws).fill = c.fill := rfl

@[simp] theorem install_fill (g : CacheGeometry) (c : Cache) (b : Nat) : (install g c b).fill = c.fill := rfl

@[simp] theorem touch_length (g : CacheGeometry) (t : Nat) (ws : List Way) (w : Nat) :
    (touch g t ws w).length = ws.length := by
  simp [touch]

/-- Each way after a touch (R244). -/
theorem touch_getElem? (g : CacheGeometry) (t : Nat) (ws : List Way) (w j : Nat) :
    (touch g t ws w)[j]? = ws[j]?.map fun v =>
      if j = w then ⟨true, t, 0⟩
      else if v.valid && decide (v.age < oldAge g ws w) then { v with age := v.age + 1 }
      else v := by
  simp [touch]

/-- The ways of every set after an installation (R248). -/
theorem setWays_install (g : CacheGeometry) (c : Cache) (b j : Nat) :
    setWays g (install g c b) j =
      if j = setIndexOf g b then touch g (tagOf g b) (setWays g c j) (victim (setWays g c j)) else setWays g c j := by
  unfold install
  rw [setWays_putWays]
  split
  · rename_i h; subst h; rfl
  · rfl

theorem findWay_some {p : Way → Bool} {ws : List Way} {w : Nat} (h : findWay p ws = some w) :
    ∃ v, ws[w]? = some v ∧ p v = true ∧ ∀ j < w, ∀ u, ws[j]? = some u → p u = false := by
  induction ws generalizing w with
  | nil => cases h
  | cons a ws ih =>
    unfold findWay at h
    split at h
    · rename_i ha; cases h; exact ⟨a, rfl, ha, by omega⟩
    · rename_i ha
      obtain ⟨k, hk, rfl⟩ := Option.map_eq_some_iff.mp h
      obtain ⟨v, hv, hp, hmin⟩ := ih hk
      refine ⟨v, by simpa using hv, hp, fun j hj u hu => ?_⟩
      cases j with
      | zero => simp at hu; subst hu; simpa using ha
      | succ j => exact hmin j (by omega) u (by simpa using hu)

theorem findWay_none {p : Way → Bool} {ws : List Way} (h : findWay p ws = none) : ∀ v ∈ ws, p v = false := by
  induction ws with
  | nil => simp
  | cons a ws ih =>
    unfold findWay at h
    split at h
    · cases h
    · rename_i ha
      simp only [Option.map_eq_none_iff] at h
      intro v hv
      rcases List.mem_cons.mp hv with rfl | hv
      · simpa using ha
      · exact ih h v hv

/-- All that a lookup with no fill in the way can do (R243). -/
theorem cacheLookup_cases (g : CacheGeometry) (c : Cache) (a : Nat) :
    (∃ w, lookup (tagOf g a) (setWays g c (setIndexOf g a)) = some w ∧
        cacheLookup g c a =
          (c.putWays g (setIndexOf g a) (touch g (tagOf g a) (setWays g c (setIndexOf g a)) w), true)) ∨
      (lookup (tagOf g a) (setWays g c (setIndexOf g a)) = none ∧ g.penalty = 0 ∧
        cacheLookup g c a = (install g c (blockOf g a), true)) ∨
      (lookup (tagOf g a) (setWays g c (setIndexOf g a)) = none ∧ g.penalty ≠ 0 ∧
        cacheLookup g c a = ({ c with fill := some ⟨blockOf g a, g.penalty⟩ }, false)) := by
  unfold cacheLookup
  simp only
  split
  · rename_i w h; exact .inl ⟨w, h, rfl⟩
  · rename_i h
    split
    · rename_i hp; exact .inr (.inl ⟨h, hp, rfl⟩)
    · rename_i hp; exact .inr (.inr ⟨h, hp, rfl⟩)

/-- All that an access can do (R243): wait, or look up, in the instruction cache after dropping another block's fill. -/
theorem cacheAccess_cases (k : CacheKind) (g : CacheGeometry) (c : Cache) (a : Word) :
    (∃ f, c.fill = some f ∧ (f.block = blockOf g a.toNat ∨ k = .data) ∧ cacheAccess k g c a = (c, false)) ∨
      ((c.fill = none ∨ k = .instruction) ∧ cacheAccess k g c a = cacheLookup g { c with fill := none } a.toNat) := by
  unfold cacheAccess
  split
  · rename_i h
    refine .inr ⟨.inl h, ?_⟩
    congr 1
    cases c; simp_all
  · rename_i f h
    split
    · rename_i hb; exact .inl ⟨f, h, .inl hb, rfl⟩
    · cases k
      · exact .inr ⟨.inr rfl, rfl⟩
      · exact .inl ⟨f, h, .inr rfl, rfl⟩

/-- All that a tick can do (R247). -/
theorem tickFill_cases (g : CacheGeometry) (c : Cache) :
    (c.fill = none ∧ tickFill g c = c) ∨
      (∃ f, c.fill = some f ∧ f.remaining ≤ 1 ∧ tickFill g c = { install g c f.block with fill := none }) ∨
      (∃ f, c.fill = some f ∧ 1 < f.remaining ∧ tickFill g c = { c with fill := some ⟨f.block, f.remaining - 1⟩ }) := by
  unfold tickFill
  split
  · rename_i h; exact .inl ⟨h, rfl⟩
  · rename_i f h
    split
    · exact .inr (.inl ⟨f, h, by omega, rfl⟩)
    · exact .inr (.inr ⟨f, h, by omega, rfl⟩)

end Sys2Proof.Machine
end

