-- ==== Sys2Proof/Laws/State.lean ====
section
/-! SUPPORT. One lemma per field per update of the state, so that no later proof unfolds a record update. -/

namespace Sys2Proof.Machine

variable (s : State)

/-! #### `setFlags` -/

@[simp] theorem State.setFlags_cfg (a b : Bool) : (s.setFlags a b).cfg = s.cfg := rfl
@[simp] theorem State.setFlags_x (a b : Bool) : (s.setFlags a b).x = s.x := rfl
@[simp] theorem State.setFlags_z (a b : Bool) : (s.setFlags a b).z = a := rfl
@[simp] theorem State.setFlags_n (a b : Bool) : (s.setFlags a b).n = b := rfl
@[simp] theorem State.setFlags_pc (a b : Bool) : (s.setFlags a b).pc = s.pc := rfl
@[simp] theorem State.setFlags_mem (a b : Bool) : (s.setFlags a b).mem = s.mem := rfl
@[simp] theorem State.setFlags_prev (a b : Bool) : (s.setFlags a b).prev = s.prev := rfl
@[simp] theorem State.setFlags_cur (a b : Bool) : (s.setFlags a b).cur = s.cur := rfl
@[simp] theorem State.setFlags_stage (a b : Bool) : (s.setFlags a b).stage = s.stage := rfl
@[simp] theorem State.setFlags_halt (a b : Bool) : (s.setFlags a b).halt = s.halt := rfl
@[simp] theorem State.setFlags_runStop (a b : Bool) : (s.setFlags a b).runStop = s.runStop := rfl
@[simp] theorem State.setFlags_ctl (a b : Bool) : (s.setFlags a b).ctl = s.ctl := rfl
@[simp] theorem State.setFlags_bp (a b : Bool) : (s.setFlags a b).bp = s.bp := rfl
@[simp] theorem State.setFlags_ic (a b : Bool) : (s.setFlags a b).ic = s.ic := rfl
@[simp] theorem State.setFlags_dc (a b : Bool) : (s.setFlags a b).dc = s.dc := rfl
@[simp] theorem State.setFlags_cycles (a b : Bool) : (s.setFlags a b).cycles = s.cycles := rfl
@[simp] theorem State.setFlags_retired (a b : Bool) : (s.setFlags a b).retired = s.retired := rfl
@[simp] theorem State.setFlags_squashes (a b : Bool) : (s.setFlags a b).squashes = s.squashes := rfl
@[simp] theorem State.setFlags_fault (a b : Bool) : (s.setFlags a b).fault = s.fault := rfl
@[simp] theorem State.setFlags_reg (a b : Bool) (r : Reg) : (s.setFlags a b).reg r = s.reg r := rfl

/-! #### `setMem` -/

@[simp] theorem State.setMem_cfg (m : Memory) : (s.setMem m).cfg = s.cfg := rfl
@[simp] theorem State.setMem_x (m : Memory) : (s.setMem m).x = s.x := rfl
@[simp] theorem State.setMem_z (m : Memory) : (s.setMem m).z = s.z := rfl
@[simp] theorem State.setMem_n (m : Memory) : (s.setMem m).n = s.n := rfl
@[simp] theorem State.setMem_pc (m : Memory) : (s.setMem m).pc = s.pc := rfl
@[simp] theorem State.setMem_mem (m : Memory) : (s.setMem m).mem = m := rfl
@[simp] theorem State.setMem_prev (m : Memory) : (s.setMem m).prev = s.prev := rfl
@[simp] theorem State.setMem_cur (m : Memory) : (s.setMem m).cur = s.cur := rfl
@[simp] theorem State.setMem_stage (m : Memory) : (s.setMem m).stage = s.stage := rfl
@[simp] theorem State.setMem_halt (m : Memory) : (s.setMem m).halt = s.halt := rfl
@[simp] theorem State.setMem_runStop (m : Memory) : (s.setMem m).runStop = s.runStop := rfl
@[simp] theorem State.setMem_ctl (m : Memory) : (s.setMem m).ctl = s.ctl := rfl
@[simp] theorem State.setMem_bp (m : Memory) : (s.setMem m).bp = s.bp := rfl
@[simp] theorem State.setMem_ic (m : Memory) : (s.setMem m).ic = s.ic := rfl
@[simp] theorem State.setMem_dc (m : Memory) : (s.setMem m).dc = s.dc := rfl
@[simp] theorem State.setMem_cycles (m : Memory) : (s.setMem m).cycles = s.cycles := rfl
@[simp] theorem State.setMem_retired (m : Memory) : (s.setMem m).retired = s.retired := rfl
@[simp] theorem State.setMem_squashes (m : Memory) : (s.setMem m).squashes = s.squashes := rfl
@[simp] theorem State.setMem_fault (m : Memory) : (s.setMem m).fault = s.fault := rfl
@[simp] theorem State.setMem_reg (m : Memory) (r : Reg) : (s.setMem m).reg r = s.reg r := rfl

/-! #### `putIfde` -/

@[simp] theorem State.putIfde_cfg (l : Latch) : (s.putIfde l).cfg = s.cfg := rfl
@[simp] theorem State.putIfde_x (l : Latch) : (s.putIfde l).x = s.x := rfl
@[simp] theorem State.putIfde_z (l : Latch) : (s.putIfde l).z = s.z := rfl
@[simp] theorem State.putIfde_n (l : Latch) : (s.putIfde l).n = s.n := rfl
@[simp] theorem State.putIfde_pc (l : Latch) : (s.putIfde l).pc = s.pc := rfl
@[simp] theorem State.putIfde_mem (l : Latch) : (s.putIfde l).mem = s.mem := rfl
@[simp] theorem State.putIfde_prev (l : Latch) : (s.putIfde l).prev = s.prev := rfl
@[simp] theorem State.putIfde_cur (l : Latch) : (s.putIfde l).cur = { s.cur with ifde := l } := rfl
@[simp] theorem State.putIfde_stage (l : Latch) : (s.putIfde l).stage = s.stage := rfl
@[simp] theorem State.putIfde_halt (l : Latch) : (s.putIfde l).halt = s.halt := rfl
@[simp] theorem State.putIfde_runStop (l : Latch) : (s.putIfde l).runStop = s.runStop := rfl
@[simp] theorem State.putIfde_ctl (l : Latch) : (s.putIfde l).ctl = s.ctl := rfl
@[simp] theorem State.putIfde_bp (l : Latch) : (s.putIfde l).bp = s.bp := rfl
@[simp] theorem State.putIfde_ic (l : Latch) : (s.putIfde l).ic = s.ic := rfl
@[simp] theorem State.putIfde_dc (l : Latch) : (s.putIfde l).dc = s.dc := rfl
@[simp] theorem State.putIfde_cycles (l : Latch) : (s.putIfde l).cycles = s.cycles := rfl
@[simp] theorem State.putIfde_retired (l : Latch) : (s.putIfde l).retired = s.retired := rfl
@[simp] theorem State.putIfde_squashes (l : Latch) : (s.putIfde l).squashes = s.squashes := rfl
@[simp] theorem State.putIfde_fault (l : Latch) : (s.putIfde l).fault = s.fault := rfl
@[simp] theorem State.putIfde_reg (l : Latch) (r : Reg) : (s.putIfde l).reg r = s.reg r := rfl

/-! #### `putDeex` -/

@[simp] theorem State.putDeex_cfg (l : Latch) : (s.putDeex l).cfg = s.cfg := rfl
@[simp] theorem State.putDeex_x (l : Latch) : (s.putDeex l).x = s.x := rfl
@[simp] theorem State.putDeex_z (l : Latch) : (s.putDeex l).z = s.z := rfl
@[simp] theorem State.putDeex_n (l : Latch) : (s.putDeex l).n = s.n := rfl
@[simp] theorem State.putDeex_pc (l : Latch) : (s.putDeex l).pc = s.pc := rfl
@[simp] theorem State.putDeex_mem (l : Latch) : (s.putDeex l).mem = s.mem := rfl
@[simp] theorem State.putDeex_prev (l : Latch) : (s.putDeex l).prev = s.prev := rfl
@[simp] theorem State.putDeex_cur (l : Latch) : (s.putDeex l).cur = { s.cur with deex := l } := rfl
@[simp] theorem State.putDeex_stage (l : Latch) : (s.putDeex l).stage = s.stage := rfl
@[simp] theorem State.putDeex_halt (l : Latch) : (s.putDeex l).halt = s.halt := rfl
@[simp] theorem State.putDeex_runStop (l : Latch) : (s.putDeex l).runStop = s.runStop := rfl
@[simp] theorem State.putDeex_ctl (l : Latch) : (s.putDeex l).ctl = s.ctl := rfl
@[simp] theorem State.putDeex_bp (l : Latch) : (s.putDeex l).bp = s.bp := rfl
@[simp] theorem State.putDeex_ic (l : Latch) : (s.putDeex l).ic = s.ic := rfl
@[simp] theorem State.putDeex_dc (l : Latch) : (s.putDeex l).dc = s.dc := rfl
@[simp] theorem State.putDeex_cycles (l : Latch) : (s.putDeex l).cycles = s.cycles := rfl
@[simp] theorem State.putDeex_retired (l : Latch) : (s.putDeex l).retired = s.retired := rfl
@[simp] theorem State.putDeex_squashes (l : Latch) : (s.putDeex l).squashes = s.squashes := rfl
@[simp] theorem State.putDeex_fault (l : Latch) : (s.putDeex l).fault = s.fault := rfl
@[simp] theorem State.putDeex_reg (l : Latch) (r : Reg) : (s.putDeex l).reg r = s.reg r := rfl

/-! #### `putExmem` -/

@[simp] theorem State.putExmem_cfg (l : Latch) : (s.putExmem l).cfg = s.cfg := rfl
@[simp] theorem State.putExmem_x (l : Latch) : (s.putExmem l).x = s.x := rfl
@[simp] theorem State.putExmem_z (l : Latch) : (s.putExmem l).z = s.z := rfl
@[simp] theorem State.putExmem_n (l : Latch) : (s.putExmem l).n = s.n := rfl
@[simp] theorem State.putExmem_pc (l : Latch) : (s.putExmem l).pc = s.pc := rfl
@[simp] theorem State.putExmem_mem (l : Latch) : (s.putExmem l).mem = s.mem := rfl
@[simp] theorem State.putExmem_prev (l : Latch) : (s.putExmem l).prev = s.prev := rfl
@[simp] theorem State.putExmem_cur (l : Latch) : (s.putExmem l).cur = { s.cur with exmem := l } := rfl
@[simp] theorem State.putExmem_stage (l : Latch) : (s.putExmem l).stage = s.stage := rfl
@[simp] theorem State.putExmem_halt (l : Latch) : (s.putExmem l).halt = s.halt := rfl
@[simp] theorem State.putExmem_runStop (l : Latch) : (s.putExmem l).runStop = s.runStop := rfl
@[simp] theorem State.putExmem_ctl (l : Latch) : (s.putExmem l).ctl = s.ctl := rfl
@[simp] theorem State.putExmem_bp (l : Latch) : (s.putExmem l).bp = s.bp := rfl
@[simp] theorem State.putExmem_ic (l : Latch) : (s.putExmem l).ic = s.ic := rfl
@[simp] theorem State.putExmem_dc (l : Latch) : (s.putExmem l).dc = s.dc := rfl
@[simp] theorem State.putExmem_cycles (l : Latch) : (s.putExmem l).cycles = s.cycles := rfl
@[simp] theorem State.putExmem_retired (l : Latch) : (s.putExmem l).retired = s.retired := rfl
@[simp] theorem State.putExmem_squashes (l : Latch) : (s.putExmem l).squashes = s.squashes := rfl
@[simp] theorem State.putExmem_fault (l : Latch) : (s.putExmem l).fault = s.fault := rfl
@[simp] theorem State.putExmem_reg (l : Latch) (r : Reg) : (s.putExmem l).reg r = s.reg r := rfl

/-! #### `putMemwb` -/

@[simp] theorem State.putMemwb_cfg (l : Latch) : (s.putMemwb l).cfg = s.cfg := rfl
@[simp] theorem State.putMemwb_x (l : Latch) : (s.putMemwb l).x = s.x := rfl
@[simp] theorem State.putMemwb_z (l : Latch) : (s.putMemwb l).z = s.z := rfl
@[simp] theorem State.putMemwb_n (l : Latch) : (s.putMemwb l).n = s.n := rfl
@[simp] theorem State.putMemwb_pc (l : Latch) : (s.putMemwb l).pc = s.pc := rfl
@[simp] theorem State.putMemwb_mem (l : Latch) : (s.putMemwb l).mem = s.mem := rfl
@[simp] theorem State.putMemwb_prev (l : Latch) : (s.putMemwb l).prev = s.prev := rfl
@[simp] theorem State.putMemwb_cur (l : Latch) : (s.putMemwb l).cur = { s.cur with memwb := l } := rfl
@[simp] theorem State.putMemwb_stage (l : Latch) : (s.putMemwb l).stage = s.stage := rfl
@[simp] theorem State.putMemwb_halt (l : Latch) : (s.putMemwb l).halt = s.halt := rfl
@[simp] theorem State.putMemwb_runStop (l : Latch) : (s.putMemwb l).runStop = s.runStop := rfl
@[simp] theorem State.putMemwb_ctl (l : Latch) : (s.putMemwb l).ctl = s.ctl := rfl
@[simp] theorem State.putMemwb_bp (l : Latch) : (s.putMemwb l).bp = s.bp := rfl
@[simp] theorem State.putMemwb_ic (l : Latch) : (s.putMemwb l).ic = s.ic := rfl
@[simp] theorem State.putMemwb_dc (l : Latch) : (s.putMemwb l).dc = s.dc := rfl
@[simp] theorem State.putMemwb_cycles (l : Latch) : (s.putMemwb l).cycles = s.cycles := rfl
@[simp] theorem State.putMemwb_retired (l : Latch) : (s.putMemwb l).retired = s.retired := rfl
@[simp] theorem State.putMemwb_squashes (l : Latch) : (s.putMemwb l).squashes = s.squashes := rfl
@[simp] theorem State.putMemwb_fault (l : Latch) : (s.putMemwb l).fault = s.fault := rfl
@[simp] theorem State.putMemwb_reg (l : Latch) (r : Reg) : (s.putMemwb l).reg r = s.reg r := rfl

/-! #### `atStage` -/

@[simp] theorem State.atStage_cfg (p : Stage) : (s.atStage p).cfg = s.cfg := rfl
@[simp] theorem State.atStage_x (p : Stage) : (s.atStage p).x = s.x := rfl
@[simp] theorem State.atStage_z (p : Stage) : (s.atStage p).z = s.z := rfl
@[simp] theorem State.atStage_n (p : Stage) : (s.atStage p).n = s.n := rfl
@[simp] theorem State.atStage_pc (p : Stage) : (s.atStage p).pc = s.pc := rfl
@[simp] theorem State.atStage_mem (p : Stage) : (s.atStage p).mem = s.mem := rfl
@[simp] theorem State.atStage_prev (p : Stage) : (s.atStage p).prev = s.prev := rfl
@[simp] theorem State.atStage_cur (p : Stage) : (s.atStage p).cur = s.cur := rfl
@[simp] theorem State.atStage_stage (p : Stage) : (s.atStage p).stage = p := rfl
@[simp] theorem State.atStage_halt (p : Stage) : (s.atStage p).halt = s.halt := rfl
@[simp] theorem State.atStage_runStop (p : Stage) : (s.atStage p).runStop = s.runStop := rfl
@[simp] theorem State.atStage_ctl (p : Stage) : (s.atStage p).ctl = s.ctl := rfl
@[simp] theorem State.atStage_bp (p : Stage) : (s.atStage p).bp = s.bp := rfl
@[simp] theorem State.atStage_ic (p : Stage) : (s.atStage p).ic = s.ic := rfl
@[simp] theorem State.atStage_dc (p : Stage) : (s.atStage p).dc = s.dc := rfl
@[simp] theorem State.atStage_cycles (p : Stage) : (s.atStage p).cycles = s.cycles := rfl
@[simp] theorem State.atStage_retired (p : Stage) : (s.atStage p).retired = s.retired := rfl
@[simp] theorem State.atStage_squashes (p : Stage) : (s.atStage p).squashes = s.squashes := rfl
@[simp] theorem State.atStage_fault (p : Stage) : (s.atStage p).fault = s.fault := rfl
@[simp] theorem State.atStage_reg (p : Stage) (r : Reg) : (s.atStage p).reg r = s.reg r := rfl

/-! #### `setNextPc` -/

@[simp] theorem State.setNextPc_cfg (a : Word) : (s.setNextPc a).cfg = s.cfg := rfl
@[simp] theorem State.setNextPc_x (a : Word) : (s.setNextPc a).x = s.x := rfl
@[simp] theorem State.setNextPc_z (a : Word) : (s.setNextPc a).z = s.z := rfl
@[simp] theorem State.setNextPc_n (a : Word) : (s.setNextPc a).n = s.n := rfl
@[simp] theorem State.setNextPc_pc (a : Word) : (s.setNextPc a).pc = s.pc := rfl
@[simp] theorem State.setNextPc_mem (a : Word) : (s.setNextPc a).mem = s.mem := rfl
@[simp] theorem State.setNextPc_prev (a : Word) : (s.setNextPc a).prev = s.prev := rfl
@[simp] theorem State.setNextPc_cur (a : Word) : (s.setNextPc a).cur = s.cur := rfl
@[simp] theorem State.setNextPc_stage (a : Word) : (s.setNextPc a).stage = s.stage := rfl
@[simp] theorem State.setNextPc_halt (a : Word) : (s.setNextPc a).halt = s.halt := rfl
@[simp] theorem State.setNextPc_runStop (a : Word) : (s.setNextPc a).runStop = s.runStop := rfl
@[simp] theorem State.setNextPc_ctl (a : Word) : (s.setNextPc a).ctl = { s.ctl with nextPc := some a } := rfl
@[simp] theorem State.setNextPc_bp (a : Word) : (s.setNextPc a).bp = s.bp := rfl
@[simp] theorem State.setNextPc_ic (a : Word) : (s.setNextPc a).ic = s.ic := rfl
@[simp] theorem State.setNextPc_dc (a : Word) : (s.setNextPc a).dc = s.dc := rfl
@[simp] theorem State.setNextPc_cycles (a : Word) : (s.setNextPc a).cycles = s.cycles := rfl
@[simp] theorem State.setNextPc_retired (a : Word) : (s.setNextPc a).retired = s.retired := rfl
@[simp] theorem State.setNextPc_squashes (a : Word) : (s.setNextPc a).squashes = s.squashes := rfl
@[simp] theorem State.setNextPc_fault (a : Word) : (s.setNextPc a).fault = s.fault := rfl
@[simp] theorem State.setNextPc_reg (a : Word) (r : Reg) : (s.setNextPc a).reg r = s.reg r := rfl

/-! #### `startCycle` -/

@[simp] theorem State.startCycle_cfg : (s.startCycle).cfg = s.cfg := rfl
@[simp] theorem State.startCycle_x : (s.startCycle).x = s.x := rfl
@[simp] theorem State.startCycle_z : (s.startCycle).z = s.z := rfl
@[simp] theorem State.startCycle_n : (s.startCycle).n = s.n := rfl
@[simp] theorem State.startCycle_pc : (s.startCycle).pc = s.pc := rfl
@[simp] theorem State.startCycle_mem : (s.startCycle).mem = s.mem := rfl
@[simp] theorem State.startCycle_prev : (s.startCycle).prev = s.prev := rfl
@[simp] theorem State.startCycle_cur : (s.startCycle).cur = s.cur := rfl
@[simp] theorem State.startCycle_stage : (s.startCycle).stage = s.stage := rfl
@[simp] theorem State.startCycle_halt : (s.startCycle).halt = s.halt := rfl
@[simp] theorem State.startCycle_runStop : (s.startCycle).runStop = s.runStop := rfl
@[simp] theorem State.startCycle_ctl : (s.startCycle).ctl = Control.cleared := rfl
@[simp] theorem State.startCycle_bp : (s.startCycle).bp = s.bp := rfl
@[simp] theorem State.startCycle_ic : (s.startCycle).ic = s.ic := rfl
@[simp] theorem State.startCycle_dc : (s.startCycle).dc = s.dc := rfl
@[simp] theorem State.startCycle_cycles : (s.startCycle).cycles = s.cycles := rfl
@[simp] theorem State.startCycle_retired : (s.startCycle).retired = s.retired := rfl
@[simp] theorem State.startCycle_squashes : (s.startCycle).squashes = s.squashes := rfl
@[simp] theorem State.startCycle_fault : (s.startCycle).fault = s.fault := rfl
@[simp] theorem State.startCycle_reg (r : Reg) : (s.startCycle).reg r = s.reg r := rfl

/-! #### `raiseLoadStall` -/

@[simp] theorem State.raiseLoadStall_cfg : (s.raiseLoadStall).cfg = s.cfg := rfl
@[simp] theorem State.raiseLoadStall_x : (s.raiseLoadStall).x = s.x := rfl
@[simp] theorem State.raiseLoadStall_z : (s.raiseLoadStall).z = s.z := rfl
@[simp] theorem State.raiseLoadStall_n : (s.raiseLoadStall).n = s.n := rfl
@[simp] theorem State.raiseLoadStall_pc : (s.raiseLoadStall).pc = s.pc := rfl
@[simp] theorem State.raiseLoadStall_mem : (s.raiseLoadStall).mem = s.mem := rfl
@[simp] theorem State.raiseLoadStall_prev : (s.raiseLoadStall).prev = s.prev := rfl
@[simp] theorem State.raiseLoadStall_cur : (s.raiseLoadStall).cur = s.cur := rfl
@[simp] theorem State.raiseLoadStall_stage : (s.raiseLoadStall).stage = s.stage := rfl
@[simp] theorem State.raiseLoadStall_halt : (s.raiseLoadStall).halt = s.halt := rfl
@[simp] theorem State.raiseLoadStall_runStop : (s.raiseLoadStall).runStop = s.runStop := rfl
@[simp] theorem State.raiseLoadStall_ctl : (s.raiseLoadStall).ctl = { s.ctl with loadStall := true } := rfl
@[simp] theorem State.raiseLoadStall_bp : (s.raiseLoadStall).bp = s.bp := rfl
@[simp] theorem State.raiseLoadStall_ic : (s.raiseLoadStall).ic = s.ic := rfl
@[simp] theorem State.raiseLoadStall_dc : (s.raiseLoadStall).dc = s.dc := rfl
@[simp] theorem State.raiseLoadStall_cycles : (s.raiseLoadStall).cycles = s.cycles := rfl
@[simp] theorem State.raiseLoadStall_retired : (s.raiseLoadStall).retired = s.retired := rfl
@[simp] theorem State.raiseLoadStall_squashes : (s.raiseLoadStall).squashes = s.squashes := rfl
@[simp] theorem State.raiseLoadStall_fault : (s.raiseLoadStall).fault = s.fault := rfl
@[simp] theorem State.raiseLoadStall_reg (r : Reg) : (s.raiseLoadStall).reg r = s.reg r := rfl

/-! #### `raiseMemStall` -/

@[simp] theorem State.raiseMemStall_cfg : (s.raiseMemStall).cfg = s.cfg := rfl
@[simp] theorem State.raiseMemStall_x : (s.raiseMemStall).x = s.x := rfl
@[simp] theorem State.raiseMemStall_z : (s.raiseMemStall).z = s.z := rfl
@[simp] theorem State.raiseMemStall_n : (s.raiseMemStall).n = s.n := rfl
@[simp] theorem State.raiseMemStall_pc : (s.raiseMemStall).pc = s.pc := rfl
@[simp] theorem State.raiseMemStall_mem : (s.raiseMemStall).mem = s.mem := rfl
@[simp] theorem State.raiseMemStall_prev : (s.raiseMemStall).prev = s.prev := rfl
@[simp] theorem State.raiseMemStall_cur : (s.raiseMemStall).cur = s.cur := rfl
@[simp] theorem State.raiseMemStall_stage : (s.raiseMemStall).stage = s.stage := rfl
@[simp] theorem State.raiseMemStall_halt : (s.raiseMemStall).halt = s.halt := rfl
@[simp] theorem State.raiseMemStall_runStop : (s.raiseMemStall).runStop = s.runStop := rfl
@[simp] theorem State.raiseMemStall_ctl : (s.raiseMemStall).ctl = { s.ctl with memStall := true, updateExecuteWithSavedOp := true } := rfl
@[simp] theorem State.raiseMemStall_bp : (s.raiseMemStall).bp = s.bp := rfl
@[simp] theorem State.raiseMemStall_ic : (s.raiseMemStall).ic = s.ic := rfl
@[simp] theorem State.raiseMemStall_dc : (s.raiseMemStall).dc = s.dc := rfl
@[simp] theorem State.raiseMemStall_cycles : (s.raiseMemStall).cycles = s.cycles := rfl
@[simp] theorem State.raiseMemStall_retired : (s.raiseMemStall).retired = s.retired := rfl
@[simp] theorem State.raiseMemStall_squashes : (s.raiseMemStall).squashes = s.squashes := rfl
@[simp] theorem State.raiseMemStall_fault : (s.raiseMemStall).fault = s.fault := rfl
@[simp] theorem State.raiseMemStall_reg (r : Reg) : (s.raiseMemStall).reg r = s.reg r := rfl

/-! #### `putResolved` -/

@[simp] theorem State.putResolved_cfg (q : Bool) (a : Word) (u : PredUpdate) : (s.putResolved q a u).cfg = s.cfg := rfl
@[simp] theorem State.putResolved_x (q : Bool) (a : Word) (u : PredUpdate) : (s.putResolved q a u).x = s.x := rfl
@[simp] theorem State.putResolved_z (q : Bool) (a : Word) (u : PredUpdate) : (s.putResolved q a u).z = s.z := rfl
@[simp] theorem State.putResolved_n (q : Bool) (a : Word) (u : PredUpdate) : (s.putResolved q a u).n = s.n := rfl
@[simp] theorem State.putResolved_pc (q : Bool) (a : Word) (u : PredUpdate) : (s.putResolved q a u).pc = s.pc := rfl
@[simp] theorem State.putResolved_mem (q : Bool) (a : Word) (u : PredUpdate) : (s.putResolved q a u).mem = s.mem := rfl
@[simp] theorem State.putResolved_prev (q : Bool) (a : Word) (u : PredUpdate) : (s.putResolved q a u).prev = s.prev := rfl
@[simp] theorem State.putResolved_cur (q : Bool) (a : Word) (u : PredUpdate) : (s.putResolved q a u).cur = s.cur := rfl
@[simp] theorem State.putResolved_stage (q : Bool) (a : Word) (u : PredUpdate) : (s.putResolved q a u).stage = s.stage := rfl
@[simp] theorem State.putResolved_halt (q : Bool) (a : Word) (u : PredUpdate) : (s.putResolved q a u).halt = s.halt := rfl
@[simp] theorem State.putResolved_runStop (q : Bool) (a : Word) (u : PredUpdate) : (s.putResolved q a u).runStop = s.runStop := rfl
@[simp] theorem State.putResolved_ctl (q : Bool) (a : Word) (u : PredUpdate) : (s.putResolved q a u).ctl = { s.ctl with clearDecode := q, resolved := some a, upd := some u } := rfl
@[simp] theorem State.putResolved_bp (q : Bool) (a : Word) (u : PredUpdate) : (s.putResolved q a u).bp = s.bp := rfl
@[simp] theorem State.putResolved_ic (q : Bool) (a : Word) (u : PredUpdate) : (s.putResolved q a u).ic = s.ic := rfl
@[simp] theorem State.putResolved_dc (q : Bool) (a : Word) (u : PredUpdate) : (s.putResolved q a u).dc = s.dc := rfl
@[simp] theorem State.putResolved_cycles (q : Bool) (a : Word) (u : PredUpdate) : (s.putResolved q a u).cycles = s.cycles := rfl
@[simp] theorem State.putResolved_retired (q : Bool) (a : Word) (u : PredUpdate) : (s.putResolved q a u).retired = s.retired := rfl
@[simp] theorem State.putResolved_squashes (q : Bool) (a : Word) (u : PredUpdate) : (s.putResolved q a u).squashes = s.squashes := rfl
@[simp] theorem State.putResolved_fault (q : Bool) (a : Word) (u : PredUpdate) : (s.putResolved q a u).fault = s.fault := rfl
@[simp] theorem State.putResolved_reg (q : Bool) (a : Word) (u : PredUpdate) (r : Reg) : (s.putResolved q a u).reg r = s.reg r := rfl

/-! #### `setIc` -/

@[simp] theorem State.setIc_cfg (c : Cache) : (s.setIc c).cfg = s.cfg := rfl
@[simp] theorem State.setIc_x (c : Cache) : (s.setIc c).x = s.x := rfl
@[simp] theorem State.setIc_z (c : Cache) : (s.setIc c).z = s.z := rfl
@[simp] theorem State.setIc_n (c : Cache) : (s.setIc c).n = s.n := rfl
@[simp] theorem State.setIc_pc (c : Cache) : (s.setIc c).pc = s.pc := rfl
@[simp] theorem State.setIc_mem (c : Cache) : (s.setIc c).mem = s.mem := rfl
@[simp] theorem State.setIc_prev (c : Cache) : (s.setIc c).prev = s.prev := rfl
@[simp] theorem State.setIc_cur (c : Cache) : (s.setIc c).cur = s.cur := rfl
@[simp] theorem State.setIc_stage (c : Cache) : (s.setIc c).stage = s.stage := rfl
@[simp] theorem State.setIc_halt (c : Cache) : (s.setIc c).halt = s.halt := rfl
@[simp] theorem State.setIc_runStop (c : Cache) : (s.setIc c).runStop = s.runStop := rfl
@[simp] theorem State.setIc_ctl (c : Cache) : (s.setIc c).ctl = s.ctl := rfl
@[simp] theorem State.setIc_bp (c : Cache) : (s.setIc c).bp = s.bp := rfl
@[simp] theorem State.setIc_ic (c : Cache) : (s.setIc c).ic = c := rfl
@[simp] theorem State.setIc_dc (c : Cache) : (s.setIc c).dc = s.dc := rfl
@[simp] theorem State.setIc_cycles (c : Cache) : (s.setIc c).cycles = s.cycles := rfl
@[simp] theorem State.setIc_retired (c : Cache) : (s.setIc c).retired = s.retired := rfl
@[simp] theorem State.setIc_squashes (c : Cache) : (s.setIc c).squashes = s.squashes := rfl
@[simp] theorem State.setIc_fault (c : Cache) : (s.setIc c).fault = s.fault := rfl
@[simp] theorem State.setIc_reg (c : Cache) (r : Reg) : (s.setIc c).reg r = s.reg r := rfl

/-! #### `setDc` -/

@[simp] theorem State.setDc_cfg (c : Cache) : (s.setDc c).cfg = s.cfg := rfl
@[simp] theorem State.setDc_x (c : Cache) : (s.setDc c).x = s.x := rfl
@[simp] theorem State.setDc_z (c : Cache) : (s.setDc c).z = s.z := rfl
@[simp] theorem State.setDc_n (c : Cache) : (s.setDc c).n = s.n := rfl
@[simp] theorem State.setDc_pc (c : Cache) : (s.setDc c).pc = s.pc := rfl
@[simp] theorem State.setDc_mem (c : Cache) : (s.setDc c).mem = s.mem := rfl
@[simp] theorem State.setDc_prev (c : Cache) : (s.setDc c).prev = s.prev := rfl
@[simp] theorem State.setDc_cur (c : Cache) : (s.setDc c).cur = s.cur := rfl
@[simp] theorem State.setDc_stage (c : Cache) : (s.setDc c).stage = s.stage := rfl
@[simp] theorem State.setDc_halt (c : Cache) : (s.setDc c).halt = s.halt := rfl
@[simp] theorem State.setDc_runStop (c : Cache) : (s.setDc c).runStop = s.runStop := rfl
@[simp] theorem State.setDc_ctl (c : Cache) : (s.setDc c).ctl = s.ctl := rfl
@[simp] theorem State.setDc_bp (c : Cache) : (s.setDc c).bp = s.bp := rfl
@[simp] theorem State.setDc_ic (c : Cache) : (s.setDc c).ic = s.ic := rfl
@[simp] theorem State.setDc_dc (c : Cache) : (s.setDc c).dc = c := rfl
@[simp] theorem State.setDc_cycles (c : Cache) : (s.setDc c).cycles = s.cycles := rfl
@[simp] theorem State.setDc_retired (c : Cache) : (s.setDc c).retired = s.retired := rfl
@[simp] theorem State.setDc_squashes (c : Cache) : (s.setDc c).squashes = s.squashes := rfl
@[simp] theorem State.setDc_fault (c : Cache) : (s.setDc c).fault = s.fault := rfl
@[simp] theorem State.setDc_reg (c : Cache) (r : Reg) : (s.setDc c).reg r = s.reg r := rfl

/-! #### `setHalt` -/

@[simp] theorem State.setHalt_cfg : (s.setHalt).cfg = s.cfg := rfl
@[simp] theorem State.setHalt_x : (s.setHalt).x = s.x := rfl
@[simp] theorem State.setHalt_z : (s.setHalt).z = s.z := rfl
@[simp] theorem State.setHalt_n : (s.setHalt).n = s.n := rfl
@[simp] theorem State.setHalt_pc : (s.setHalt).pc = s.pc := rfl
@[simp] theorem State.setHalt_mem : (s.setHalt).mem = s.mem := rfl
@[simp] theorem State.setHalt_prev : (s.setHalt).prev = s.prev := rfl
@[simp] theorem State.setHalt_cur : (s.setHalt).cur = s.cur := rfl
@[simp] theorem State.setHalt_stage : (s.setHalt).stage = s.stage := rfl
@[simp] theorem State.setHalt_halt : (s.setHalt).halt = true := rfl
@[simp] theorem State.setHalt_runStop : (s.setHalt).runStop = s.runStop := rfl
@[simp] theorem State.setHalt_ctl : (s.setHalt).ctl = s.ctl := rfl
@[simp] theorem State.setHalt_bp : (s.setHalt).bp = s.bp := rfl
@[simp] theorem State.setHalt_ic : (s.setHalt).ic = s.ic := rfl
@[simp] theorem State.setHalt_dc : (s.setHalt).dc = s.dc := rfl
@[simp] theorem State.setHalt_cycles : (s.setHalt).cycles = s.cycles := rfl
@[simp] theorem State.setHalt_retired : (s.setHalt).retired = s.retired := rfl
@[simp] theorem State.setHalt_squashes : (s.setHalt).squashes = s.squashes := rfl
@[simp] theorem State.setHalt_fault : (s.setHalt).fault = s.fault := rfl
@[simp] theorem State.setHalt_reg (r : Reg) : (s.setHalt).reg r = s.reg r := rfl

/-! #### `setRunStop` -/

@[simp] theorem State.setRunStop_cfg : (s.setRunStop).cfg = s.cfg := rfl
@[simp] theorem State.setRunStop_x : (s.setRunStop).x = s.x := rfl
@[simp] theorem State.setRunStop_z : (s.setRunStop).z = s.z := rfl
@[simp] theorem State.setRunStop_n : (s.setRunStop).n = s.n := rfl
@[simp] theorem State.setRunStop_pc : (s.setRunStop).pc = s.pc := rfl
@[simp] theorem State.setRunStop_mem : (s.setRunStop).mem = s.mem := rfl
@[simp] theorem State.setRunStop_prev : (s.setRunStop).prev = s.prev := rfl
@[simp] theorem State.setRunStop_cur : (s.setRunStop).cur = s.cur := rfl
@[simp] theorem State.setRunStop_stage : (s.setRunStop).stage = s.stage := rfl
@[simp] theorem State.setRunStop_halt : (s.setRunStop).halt = s.halt := rfl
@[simp] theorem State.setRunStop_runStop : (s.setRunStop).runStop = true := rfl
@[simp] theorem State.setRunStop_ctl : (s.setRunStop).ctl = s.ctl := rfl
@[simp] theorem State.setRunStop_bp : (s.setRunStop).bp = s.bp := rfl
@[simp] theorem State.setRunStop_ic : (s.setRunStop).ic = s.ic := rfl
@[simp] theorem State.setRunStop_dc : (s.setRunStop).dc = s.dc := rfl
@[simp] theorem State.setRunStop_cycles : (s.setRunStop).cycles = s.cycles := rfl
@[simp] theorem State.setRunStop_retired : (s.setRunStop).retired = s.retired := rfl
@[simp] theorem State.setRunStop_squashes : (s.setRunStop).squashes = s.squashes := rfl
@[simp] theorem State.setRunStop_fault : (s.setRunStop).fault = s.fault := rfl
@[simp] theorem State.setRunStop_reg (r : Reg) : (s.setRunStop).reg r = s.reg r := rfl

/-! #### `countRetired` -/

@[simp] theorem State.countRetired_cfg : (s.countRetired).cfg = s.cfg := rfl
@[simp] theorem State.countRetired_x : (s.countRetired).x = s.x := rfl
@[simp] theorem State.countRetired_z : (s.countRetired).z = s.z := rfl
@[simp] theorem State.countRetired_n : (s.countRetired).n = s.n := rfl
@[simp] theorem State.countRetired_pc : (s.countRetired).pc = s.pc := rfl
@[simp] theorem State.countRetired_mem : (s.countRetired).mem = s.mem := rfl
@[simp] theorem State.countRetired_prev : (s.countRetired).prev = s.prev := rfl
@[simp] theorem State.countRetired_cur : (s.countRetired).cur = s.cur := rfl
@[simp] theorem State.countRetired_stage : (s.countRetired).stage = s.stage := rfl
@[simp] theorem State.countRetired_halt : (s.countRetired).halt = s.halt := rfl
@[simp] theorem State.countRetired_runStop : (s.countRetired).runStop = s.runStop := rfl
@[simp] theorem State.countRetired_ctl : (s.countRetired).ctl = s.ctl := rfl
@[simp] theorem State.countRetired_bp : (s.countRetired).bp = s.bp := rfl
@[simp] theorem State.countRetired_ic : (s.countRetired).ic = s.ic := rfl
@[simp] theorem State.countRetired_dc : (s.countRetired).dc = s.dc := rfl
@[simp] theorem State.countRetired_cycles : (s.countRetired).cycles = s.cycles := rfl
@[simp] theorem State.countRetired_retired : (s.countRetired).retired = s.retired + 1#64 := rfl
@[simp] theorem State.countRetired_squashes : (s.countRetired).squashes = s.squashes := rfl
@[simp] theorem State.countRetired_fault : (s.countRetired).fault = s.fault := rfl
@[simp] theorem State.countRetired_reg (r : Reg) : (s.countRetired).reg r = s.reg r := rfl

/-! #### `countSquash` -/

@[simp] theorem State.countSquash_cfg : (s.countSquash).cfg = s.cfg := rfl
@[simp] theorem State.countSquash_x : (s.countSquash).x = s.x := rfl
@[simp] theorem State.countSquash_z : (s.countSquash).z = s.z := rfl
@[simp] theorem State.countSquash_n : (s.countSquash).n = s.n := rfl
@[simp] theorem State.countSquash_pc : (s.countSquash).pc = s.pc := rfl
@[simp] theorem State.countSquash_mem : (s.countSquash).mem = s.mem := rfl
@[simp] theorem State.countSquash_prev : (s.countSquash).prev = s.prev := rfl
@[simp] theorem State.countSquash_cur : (s.countSquash).cur = s.cur := rfl
@[simp] theorem State.countSquash_stage : (s.countSquash).stage = s.stage := rfl
@[simp] theorem State.countSquash_halt : (s.countSquash).halt = s.halt := rfl
@[simp] theorem State.countSquash_runStop : (s.countSquash).runStop = s.runStop := rfl
@[simp] theorem State.countSquash_ctl : (s.countSquash).ctl = s.ctl := rfl
@[simp] theorem State.countSquash_bp : (s.countSquash).bp = s.bp := rfl
@[simp] theorem State.countSquash_ic : (s.countSquash).ic = s.ic := rfl
@[simp] theorem State.countSquash_dc : (s.countSquash).dc = s.dc := rfl
@[simp] theorem State.countSquash_cycles : (s.countSquash).cycles = s.cycles := rfl
@[simp] theorem State.countSquash_retired : (s.countSquash).retired = s.retired := rfl
@[simp] theorem State.countSquash_squashes : (s.countSquash).squashes = s.squashes + 1#64 := rfl
@[simp] theorem State.countSquash_fault : (s.countSquash).fault = s.fault := rfl
@[simp] theorem State.countSquash_reg (r : Reg) : (s.countSquash).reg r = s.reg r := rfl

/-! #### `setReg` -/

@[simp] theorem State.setReg_cfg (r : Reg) (v : Word) : (s.setReg r v).cfg = s.cfg := by
  unfold State.setReg; split <;> rfl
@[simp] theorem State.setReg_z (r : Reg) (v : Word) : (s.setReg r v).z = s.z := by
  unfold State.setReg; split <;> rfl
@[simp] theorem State.setReg_n (r : Reg) (v : Word) : (s.setReg r v).n = s.n := by
  unfold State.setReg; split <;> rfl
@[simp] theorem State.setReg_pc (r : Reg) (v : Word) : (s.setReg r v).pc = s.pc := by
  unfold State.setReg; split <;> rfl
@[simp] theorem State.setReg_mem (r : Reg) (v : Word) : (s.setReg r v).mem = s.mem := by
  unfold State.setReg; split <;> rfl
@[simp] theorem State.setReg_prev (r : Reg) (v : Word) : (s.setReg r v).prev = s.prev := by
  unfold State.setReg; split <;> rfl
@[simp] theorem State.setReg_cur (r : Reg) (v : Word) : (s.setReg r v).cur = s.cur := by
  unfold State.setReg; split <;> rfl
@[simp] theorem State.setReg_stage (r : Reg) (v : Word) : (s.setReg r v).stage = s.stage := by
  unfold State.setReg; split <;> rfl
@[simp] theorem State.setReg_halt (r : Reg) (v : Word) : (s.setReg r v).halt = s.halt := by
  unfold State.setReg; split <;> rfl
@[simp] theorem State.setReg_runStop (r : Reg) (v : Word) : (s.setReg r v).runStop = s.runStop := by
  unfold State.setReg; split <;> rfl
@[simp] theorem State.setReg_ctl (r : Reg) (v : Word) : (s.setReg r v).ctl = s.ctl := by
  unfold State.setReg; split <;> rfl
@[simp] theorem State.setReg_bp (r : Reg) (v : Word) : (s.setReg r v).bp = s.bp := by
  unfold State.setReg; split <;> rfl
@[simp] theorem State.setReg_ic (r : Reg) (v : Word) : (s.setReg r v).ic = s.ic := by
  unfold State.setReg; split <;> rfl
@[simp] theorem State.setReg_dc (r : Reg) (v : Word) : (s.setReg r v).dc = s.dc := by
  unfold State.setReg; split <;> rfl
@[simp] theorem State.setReg_cycles (r : Reg) (v : Word) : (s.setReg r v).cycles = s.cycles := by
  unfold State.setReg; split <;> rfl
@[simp] theorem State.setReg_retired (r : Reg) (v : Word) : (s.setReg r v).retired = s.retired := by
  unfold State.setReg; split <;> rfl
@[simp] theorem State.setReg_squashes (r : Reg) (v : Word) : (s.setReg r v).squashes = s.squashes := by
  unfold State.setReg; split <;> rfl
@[simp] theorem State.setReg_fault (r : Reg) (v : Word) : (s.setReg r v).fault = s.fault := by
  unfold State.setReg; split <;> rfl

/-! #### `tickFills` -/

@[simp] theorem tickFills_cfg : (tickFills s).cfg = s.cfg := rfl
@[simp] theorem tickFills_x : (tickFills s).x = s.x := rfl
@[simp] theorem tickFills_z : (tickFills s).z = s.z := rfl
@[simp] theorem tickFills_n : (tickFills s).n = s.n := rfl
@[simp] theorem tickFills_pc : (tickFills s).pc = s.pc := rfl
@[simp] theorem tickFills_mem : (tickFills s).mem = s.mem := rfl
@[simp] theorem tickFills_prev : (tickFills s).prev = s.prev := rfl
@[simp] theorem tickFills_cur : (tickFills s).cur = s.cur := rfl
@[simp] theorem tickFills_stage : (tickFills s).stage = s.stage := rfl
@[simp] theorem tickFills_halt : (tickFills s).halt = s.halt := rfl
@[simp] theorem tickFills_runStop : (tickFills s).runStop = s.runStop := rfl
@[simp] theorem tickFills_ctl : (tickFills s).ctl = s.ctl := rfl
@[simp] theorem tickFills_bp : (tickFills s).bp = s.bp := rfl
@[simp] theorem tickFills_ic : (tickFills s).ic = tickFill s.cfg.ic s.ic := rfl
@[simp] theorem tickFills_dc : (tickFills s).dc = tickFill s.cfg.dc s.dc := rfl
@[simp] theorem tickFills_cycles : (tickFills s).cycles = s.cycles := rfl
@[simp] theorem tickFills_retired : (tickFills s).retired = s.retired := rfl
@[simp] theorem tickFills_squashes : (tickFills s).squashes = s.squashes := rfl
@[simp] theorem tickFills_fault : (tickFills s).fault = s.fault := rfl
@[simp] theorem tickFills_reg (r : Reg) : (tickFills s).reg r = s.reg r := rfl

/-! #### `takeFault` -/

@[simp] theorem takeFault_cfg (e : Fault) : (takeFault s e).cfg = s.cfg := rfl
@[simp] theorem takeFault_x (e : Fault) : (takeFault s e).x = s.x := rfl
@[simp] theorem takeFault_z (e : Fault) : (takeFault s e).z = s.z := rfl
@[simp] theorem takeFault_n (e : Fault) : (takeFault s e).n = s.n := rfl
@[simp] theorem takeFault_pc (e : Fault) : (takeFault s e).pc = s.pc := rfl
@[simp] theorem takeFault_mem (e : Fault) : (takeFault s e).mem = s.mem := rfl
@[simp] theorem takeFault_prev (e : Fault) : (takeFault s e).prev = s.prev := rfl
@[simp] theorem takeFault_cur (e : Fault) : (takeFault s e).cur = s.cur := rfl
@[simp] theorem takeFault_stage (e : Fault) : (takeFault s e).stage = s.stage := rfl
@[simp] theorem takeFault_halt (e : Fault) : (takeFault s e).halt = s.halt := rfl
@[simp] theorem takeFault_runStop (e : Fault) : (takeFault s e).runStop = s.runStop := rfl
@[simp] theorem takeFault_ctl (e : Fault) : (takeFault s e).ctl = s.ctl := rfl
@[simp] theorem takeFault_bp (e : Fault) : (takeFault s e).bp = s.bp := rfl
@[simp] theorem takeFault_ic (e : Fault) : (takeFault s e).ic = s.ic := rfl
@[simp] theorem takeFault_dc (e : Fault) : (takeFault s e).dc = s.dc := rfl
@[simp] theorem takeFault_cycles (e : Fault) : (takeFault s e).cycles = s.cycles := rfl
@[simp] theorem takeFault_retired (e : Fault) : (takeFault s e).retired = s.retired := rfl
@[simp] theorem takeFault_squashes (e : Fault) : (takeFault s e).squashes = s.squashes := rfl
@[simp] theorem takeFault_fault (e : Fault) : (takeFault s e).fault = some e := rfl
@[simp] theorem takeFault_reg (e : Fault) (r : Reg) : (takeFault s e).reg r = s.reg r := rfl

/-! #### `endOfCycle` -/

@[simp] theorem endOfCycle_cfg : (endOfCycle s).cfg = s.cfg := rfl
@[simp] theorem endOfCycle_x : (endOfCycle s).x = s.x := rfl
@[simp] theorem endOfCycle_z : (endOfCycle s).z = s.z := rfl
@[simp] theorem endOfCycle_n : (endOfCycle s).n = s.n := rfl
@[simp] theorem endOfCycle_pc : (endOfCycle s).pc = s.ctl.nextPc.getD s.pc := rfl
@[simp] theorem endOfCycle_mem : (endOfCycle s).mem = s.mem := rfl
@[simp] theorem endOfCycle_prev : (endOfCycle s).prev = s.cur := rfl
@[simp] theorem endOfCycle_cur : (endOfCycle s).cur = s.cur := rfl
@[simp] theorem endOfCycle_stage : (endOfCycle s).stage = .wb := rfl
@[simp] theorem endOfCycle_halt : (endOfCycle s).halt = s.halt := rfl
@[simp] theorem endOfCycle_runStop : (endOfCycle s).runStop = s.runStop := rfl
@[simp] theorem endOfCycle_ctl : (endOfCycle s).ctl = Control.cleared := rfl
@[simp] theorem endOfCycle_ic : (endOfCycle s).ic = s.ic := rfl
@[simp] theorem endOfCycle_dc : (endOfCycle s).dc = s.dc := rfl
@[simp] theorem endOfCycle_cycles : (endOfCycle s).cycles = s.cycles + 1#64 := rfl
@[simp] theorem endOfCycle_retired : (endOfCycle s).retired = s.retired := rfl
@[simp] theorem endOfCycle_squashes : (endOfCycle s).squashes = s.squashes := rfl
@[simp] theorem endOfCycle_fault : (endOfCycle s).fault = s.fault := rfl
@[simp] theorem endOfCycle_reg (r : Reg) : (endOfCycle s).reg r = s.reg r := rfl

/-- No branch in execute: the predictor is unchanged (R221). -/
theorem endOfCycle_bp_none (h : s.ctl.upd = none) : (endOfCycle s).bp = s.bp := by
  simp [endOfCycle, h]

/-- A branch in execute: its update is applied (R149, R220). -/
theorem endOfCycle_bp_some {u : PredUpdate} (h : s.ctl.upd = some u) : (endOfCycle s).bp = s.bp.apply u := by
  simp [endOfCycle, h]

end Sys2Proof.Machine
end

