-- ==== Sys2Proof/Laws/Registers.lean ====
section
/-! SUPPORT. The laws of the register file (spec/10_state.md R21, R22). -/

namespace Sys2Proof.Machine

theorem reg_zeroReg (s : State) : s.reg zeroReg = 0#64 := rfl

theorem setReg_zeroReg (s : State) (v : Word) : s.setReg zeroReg v = s := rfl

theorem toNat_lt_of_ne_zeroReg {r : Reg} (h : r ≠ zeroReg) : r.toNat < 31 := by
  have h1 := r.isLt
  have h2 : r.toNat ≠ 31 := fun e => h (BitVec.eq_of_toNat_eq (by simpa using e))
  omega

/-- A written register reads back, unless it is the zero register. -/
theorem reg_setReg_same (s : State) {r : Reg} (h : r ≠ zeroReg) (v : Word) : (s.setReg r v).reg r = v := by
  have := toNat_lt_of_ne_zeroReg h
  simp [State.setReg, State.reg, this]

/-- A write leaves every other register. -/
theorem reg_setReg_other (s : State) {r q : Reg} (h : q ≠ r) (v : Word) : (s.setReg r v).reg q = s.reg q := by
  have hn : r.toNat ≠ q.toNat := fun e => h (BitVec.eq_of_toNat_eq e.symm)
  unfold State.setReg State.reg
  split
  · split
    · simp [hn]
    · rfl
  · rfl

/-- All that a register write can do to the register file. -/
theorem reg_setReg (s : State) (r q : Reg) (v : Word) :
    (s.setReg r v).reg q = if q = r ∧ r ≠ zeroReg then v else s.reg q := by
  by_cases hq : q = r
  · subst hq
    by_cases hz : q = zeroReg
    · subst hz; rfl
    · simp [hz, reg_setReg_same s hz]
  · simp [hq, reg_setReg_other s hq]

end Sys2Proof.Machine
end

