-- ==== Sys2Proof/Laws/Stages.lean ====
section
/-! SUPPORT. What the shared stage operations can do: `inStage` at each stage, the forwarding function, and one inversion
lemma for execute and for the memory access. -/

namespace Sys2Proof.Machine

/-! ### `inStage` -/

theorem inStage_wb {de ex mem wb : StageFn} {s : State} {op : MicroOp} (hp : s.stage = .wb)
    (hl : s.prev.memwb = some op) : inStage de ex mem wb s = wb op s := by
  simp [inStage, onLatch, hp, hl]

theorem inStage_mem {de ex mem wb : StageFn} {s : State} {op : MicroOp} (hp : s.stage = .mem)
    (hl : s.prev.exmem = some op) : inStage de ex mem wb s = mem op s := by
  simp [inStage, onLatch, hp, hl]

theorem inStage_ex {de ex mem wb : StageFn} {s : State} {op : MicroOp} (hp : s.stage = .ex)
    (hl : s.prev.deex = some op) : inStage de ex mem wb s = ex op s := by
  simp [inStage, onLatch, hp, hl]

theorem inStage_de {de ex mem wb : StageFn} {s : State} {op : MicroOp} (hp : s.stage = .de)
    (hl : s.prev.ifde = some op) : inStage de ex mem wb s = de op s := by
  simp [inStage, onLatch, hp, hl]

/-! ### Forwarding -/

/-- The only fault of a forwarded value is `ForwardFromLoad`. -/
theorem fwdVal_error {L : Latches} {r : Reg} {v : Word} {f : Fault} (h : fwdVal L r v = .error f) :
    f = .forwardFromLoad := by
  unfold fwdVal at h
  split at h
  · cases h
  · split at h
    · cases h
    · split at h
      · split at h
        · cases h; rfl
        · cases h
      · cases h

/-- Forwarding faults with `ForwardFromLoad` only (R186). -/
theorem forward_error {d : Declared} {L : Latches} {op : MicroOp} {f : Fault} (h : forward d L op = .error f) :
    f = .forwardFromLoad := by
  unfold forward at h
  split at h
  · cases h
  · cases h; rfl

/-- All that forwarding can do to a micro-op: it changes the three operand values, each by its field. -/
theorem forward_ok {d : Declared} {L : Latches} {op op' : MicroOp} (h : forward d L op = .ok op') :
    ∃ a b c, fwdField L d.rn op.rnVal = .ok a ∧ fwdField L d.rm op.rmVal = .ok b ∧ fwdField L d.rt op.rtVal = .ok c ∧
      op' = { op with rnVal := a, rmVal := b, rtVal := c } := by
  unfold forward at h
  split at h
  · rename_i a b c ha hb hc
    cases h
    exact ⟨a, b, c, ha, hb, hc, rfl⟩
  · cases h

/-- A tag that declares no source passes forwarding unchanged. -/
theorem forward_nothing (L : Latches) (op : MicroOp) : forward .nothing L op = .ok op := rfl

/-- All that the refresh of a freeze can do (R191). -/
theorem refresh_ok {L : Latches} {l l' : Latch} (h : refresh L l = .ok l') :
    (l = none ∧ l' = none) ∨
      ∃ op op', l = some op ∧ l' = some op' ∧ forward op.tag.declared L op = .ok op' := by
  unfold refresh at h
  split at h
  · cases h; exact .inl ⟨rfl, rfl⟩
  · rename_i op
    split at h
    · rename_i op' hf; cases h; exact .inr ⟨op, op', rfl, rfl, hf⟩
    · cases h

/-! ### Execute -/

/-- All that execute of a non-branch can do: raise `ForwardFromLoad`, or latch the computed micro-op. -/
theorem exStage_next {d : Declared} {f : MicroOp → MicroOp} {op : MicroOp} {s t : State}
    (h : exStage d f op s = .next t) :
    (forward d s.prev op = .error .forwardFromLoad ∧ t = { s with fault := some .forwardFromLoad }) ∨
      ∃ op', forward d s.prev op = .ok op' ∧ t = s.putExmem (some (f op')) := by
  unfold exStage raise at h
  split at h
  · rename_i r hr
    have := forward_error hr; subst this
    cases h; exact .inl ⟨hr, rfl⟩
  · rename_i op' ho; cases h; exact .inr ⟨op', ho, rfl⟩

/-- All that execute of a branch can do (R140): raise one of two faults, or latch the resolved micro-op and report it. -/
theorem exBranch_next {d : Declared} {cond : Bool} {target : MicroOp → Word} {taken : State → MicroOp → Bool}
    {op : MicroOp} {s t : State} (h : exBranch d cond target taken op s = .next t) :
    (∃ f, t = { s with fault := some f }) ∨
      ∃ o o', forward d s.prev op = .ok o ∧ o' = { o with target := target o, taken := taken s o } ∧
        aligned4 (resolvedPc o') = true ∧
        t = (s.putExmem (some o')).putResolved (o'.predPc != resolvedPc o') (resolvedPc o')
          (predUpdate s.cfg s.bp cond o') := by
  unfold exBranch raise at h
  split at h
  · cases h; exact .inl ⟨_, rfl⟩
  · rename_i o ho
    simp only at h
    split at h
    · rename_i ha; cases h; exact .inr ⟨o, _, ho, rfl, ha, rfl⟩
    · cases h; exact .inl ⟨_, rfl⟩

/-! ### Memory -/

/-- All that a memory access can do (R136, R137): raise `DataNotAdmitted`, stall, or access. -/
theorem memAccess_next {w : Nat} {access : MicroOp → State → State} {op : MicroOp} {s t : State}
    (h : memAccess w access op s = .next t) :
    (accessAdmitted s.cfg op.memAddr w = false ∧ t = { s with fault := some .dataNotAdmitted }) ∨
      (accessAdmitted s.cfg op.memAddr w = true ∧ (cacheAccess .data s.cfg.dc s.dc op.memAddr).2 = false ∧
        t = ((s.setDc (cacheAccess .data s.cfg.dc s.dc op.memAddr).1).putMemwb none).raiseMemStall) ∨
      (accessAdmitted s.cfg op.memAddr w = true ∧ (cacheAccess .data s.cfg.dc s.dc op.memAddr).2 = true ∧
        t = access op (s.setDc (cacheAccess .data s.cfg.dc s.dc op.memAddr).1)) := by
  unfold memAccess raise at h
  split at h
  · rename_i ha
    simp only at h
    split at h
    · rename_i hh; cases h; exact .inr (.inr ⟨ha, hh, rfl⟩)
    · rename_i hh; cases h; exact .inr (.inl ⟨ha, by simpa using hh, rfl⟩)
  · rename_i ha; cases h; exact .inl ⟨by simpa using ha, rfl⟩

/-! ### Decode -/

/-- All that decode of an instruction can do (R143, R145): demand a stall, or pass the decoded micro-op. -/
theorem deStage_next {tg : Tag} {op : MicroOp} {s t : State} (h : deStage tg op s = .next t) :
    (loadUse tg.declared s.prev.deex = true ∧ t = s.raiseLoadStall) ∨
      (loadUse tg.declared s.prev.deex = false ∧ t = s.putDeex (some (decodedOp tg s op))) := by
  unfold deStage at h
  split at h
  · rename_i hl; cases h; exact .inl ⟨hl, rfl⟩
  · rename_i hl; cases h; exact .inr ⟨by simpa using hl, rfl⟩

end Sys2Proof.Machine
end

