-- ==== Sys2Proof/Laws/Exec.lean ====
section
/-! SUPPORT. What the meaning of every instruction does in each stage, said once over the classes of Safety.lean: later
proofs cite these four and unfold no meaning. -/

namespace Sys2Proof.Machine

/-- The effect of write-back on registers, flags and the run-stop condition by the declared fields (R134). -/
def commit (d : Declared) (halt : Bool) (op : MicroOp) (s : State) : State :=
  let s := if d.flags then s.setFlags op.fz op.fn else s
  let s := if halt then s.setRunStop else s
  let s := match d.writes, d.dst with
    | .result, some rd => s.setReg rd op.result
    | .memVal, some rt => s.setReg rt op.memVal
    | _, _ => s
  s.countRetired

/-- All that a commit can do, component by component. -/
theorem commit_eq (d : Declared) (halt : Bool) (op : MicroOp) (s : State) :
    commit d halt op s = { s with
      x := (commit d halt op s).x
      z := if d.flags then op.fz else s.z
      n := if d.flags then op.fn else s.n
      runStop := s.runStop || halt
      retired := s.retired + 1#64 } := by
  unfold commit State.countRetired
  rcases d with ⟨_, _, _, dst, w, f⟩
  cases f <;> cases halt <;> cases w <;> cases dst <;> simp [State.setFlags, State.setRunStop]

/-- The register file after a commit (R134, R22). -/
theorem commit_reg (d : Declared) (halt : Bool) (op : MicroOp) (s : State) (r : Reg) :
    (commit d halt op s).reg r =
      if d.writes ≠ .none ∧ d.dst = some r ∧ r ≠ zeroReg then (if d.writes = .memVal then op.memVal else op.result)
      else s.reg r := by
  unfold commit
  rcases d with ⟨_, _, _, dst, w, f⟩
  cases f <;> cases halt <;> cases w <;> cases dst <;> simp [reg_setReg] <;>
    (rename_i q; by_cases e : r = q <;> simp [e, eq_comm])

/-- Write-back of every instruction is the commit of its declared fields (R134, R104). -/
theorem exec_writeBack {i : Instr} {s : State} {op : MicroOp} (hp : s.stage = .wb) (hl : s.prev.memwb = some op) :
    exec i s = .next (commit (declared i) (isHalt i) op s) := by
  cases i <;> exact inStage_wb hp hl

/-- The memory stage of every instruction (R135, R138). -/
theorem exec_memory {i : Instr} {s : State} {op : MicroOp} (hp : s.stage = .mem) (hl : s.prev.exmem = some op) :
    exec i s = match memKind i with
      | .none => memPass op s
      | .load w => memLoad w op s
      | .store w => memStore w op s := by
  cases i <;> exact inStage_mem hp hl

/-- Execute of an instruction that is no branch: forwarding, then a function that keeps what fetch and decode wrote. -/
theorem exec_execute {i : Instr} {s : State} {op : MicroOp} (hp : s.stage = .ex) (hl : s.prev.deex = some op)
    (hb : branchKind i = none) :
    ∃ f : MicroOp → MicroOp, exec i s = exStage (declared i) f op s ∧
      ∀ o, (f o).tag = o.tag ∧ (f o).pc = o.pc ∧ (f o).word = o.word ∧ (f o).phtIdx = o.phtIdx ∧
        (f o).rnVal = o.rnVal ∧ (f o).rmVal = o.rmVal ∧ (f o).rtVal = o.rtVal := by
  cases i <;> first
    | exact ⟨_, inStage_ex hp hl, fun _ => ⟨rfl, rfl, rfl, rfl, rfl, rfl, rfl⟩⟩
    | simp [branchKind] at hb

/-- Execute of a branch. -/
theorem exec_execute_branch {i : Instr} {s : State} {op : MicroOp} {c : Bool} (hp : s.stage = .ex)
    (hl : s.prev.deex = some op) (hb : branchKind i = some c) :
    ∃ target taken, exec i s = exBranch (declared i) c target taken op s := by
  cases i <;> first
    | (simp [branchKind] at hb; done)
    | (simp [branchKind] at hb; subst hb; exact ⟨_, _, inStage_ex hp hl⟩)

/-- Execute of a branch, with the resolved PC that its target and direction make (R222). -/
theorem exec_execute_branch_next {i : Instr} {s : State} {op : MicroOp} {c : Bool} (hp : s.stage = .ex)
    (hl : s.prev.deex = some op) (hb : branchKind i = some c) :
    ∃ target taken, exec i s = exBranch (declared i) c target taken op s ∧
      ∀ o : MicroOp, resolvedPc { o with target := target o, taken := taken s o } =
        nextPcOf i o.pc o.rnVal o.rtVal (branchZ s) (branchN s) := by
  cases i <;> first
    | (simp [branchKind] at hb; done)
    | (simp [branchKind] at hb; subst hb
       exact ⟨_, _, inStage_ex hp hl, fun o => by simp [resolvedPc, nextPcOf, condHolds] <;> rfl⟩)

/-- Decode of every instruction (R143 to R145). -/
theorem exec_decode {i : Instr} {s : State} {op : MicroOp} (hp : s.stage = .de) (hl : s.prev.ifde = some op) :
    exec i s = if isHalt i then deHalt (.instr i) op s else deStage (.instr i) op s := by
  cases i <;> exact inStage_de hp hl

end Sys2Proof.Machine
end

