-- ==== Sys2Proof/Laws/Memory.lean ====
section
/-! SUPPORT. The laws of the external memory (spec/20_memory.md R61 to R64): read after write, and the canonical form. -/

namespace Sys2Proof.Machine

theorem readByte_writeByte_same (m : Memory) (a : Word) (v : Byte) : readByte (writeByte m a v) a = v := by
  simp [readByte, writeByte, tableFind_insert_same]

theorem readByte_writeByte_other (m : Memory) {a b : Word} (h : b ≠ a) (v : Byte) :
    readByte (writeByte m a v) b = readByte m b := by
  have : b.toNat ≠ a.toNat := fun e => h (BitVec.eq_of_toNat_eq e)
  simp [readByte, writeByte, tableFind_insert_other m this]

/-- One byte write keeps the canonical form. -/
theorem writeByte_wf {m : Memory} (h : m.wf = true) (a : Word) (v : Byte) : (writeByte m a v).wf = true := by
  simp only [Memory.wf, Bool.and_eq_true] at h ⊢
  exact ⟨tableSorted_insert _ _ h.1, all_insert _ _ _ _ h.2 (by simpa using a.isLt)⟩

/-- `MemWrite` keeps the canonical form. -/
theorem memWrite_wf {m : Memory} (h : m.wf = true) (a v : Word) (n : Nat) : (memWrite m a v n).wf = true := by
  induction n generalizing m a v with
  | zero => exact h
  | succ n ih => exact ih (writeByte_wf h a _) _ _

/-- `write32` keeps the canonical form. -/
theorem write32_wf {m : Memory} (h : m.wf = true) (a : Word) (v : InstWord) : (write32 m a v).wf = true :=
  memWrite_wf h _ _ _

/-- A byte that `MemWrite` does not store to keeps its value. -/
theorem readByte_memWrite_other (m : Memory) (a v b : Word) (n : Nat)
    (h : ∀ k < n, b ≠ a + BitVec.ofNat 64 k) : readByte (memWrite m a v n) b = readByte m b := by
  induction n generalizing m a v with
  | zero => rfl
  | succ n ih =>
    have h0 : b ≠ a := by simpa using h 0 (by omega)
    rw [memWrite, ih, readByte_writeByte_other m h0]
    intro k hk
    have := h (k + 1) (by omega)
    rwa [show a + 1#64 + BitVec.ofNat 64 k = a + BitVec.ofNat 64 (k + 1) by
      rw [BitVec.add_assoc, BitVec.add_comm 1#64, BitVec.ofNat_add]]

end Sys2Proof.Machine
end

