-- ==== Sys2Proof/Laws/PerInstr.lean ====
section
/-! SUPPORT. A law of every instruction as syntax: its row in the declared-field table (spec/30_encoding.md R104) agrees
with its class. -/

namespace Sys2Proof.Laws

/-- The row of R104 for an instruction: a destination is declared exactly where the "writes" column is not "none"; it is
the loaded value exactly for the loads; a flag-setting instruction is neither a memory access nor a branch; a branch or a
store writes no register; a register is declared as a branch's or a store's data source only. -/
def DeclaredFields.Statement (i : Instr) : Prop :=
  ((Machine.declared i).dst.isSome = true ↔ (Machine.declared i).writes ≠ .none) ∧
  ((Machine.declared i).writes = .memVal ↔ ∃ n, Machine.memKind i = .load n) ∧
  ((Machine.declared i).flags = true → Machine.memKind i = .none ∧ Machine.branchKind i = none) ∧
  (Machine.branchKind i ≠ none ∨ (∃ n, Machine.memKind i = .store n) → (Machine.declared i).dst = none) ∧
  ((Machine.declared i).rt.isSome = true → (∃ n, Machine.memKind i = .store n) ∨ Machine.branchKind i = some true)

/-- The agreement, checked constructor by constructor. -/
theorem DeclaredFields.holds (i : Instr) : DeclaredFields.Statement i := by
  cases i <;>
    simp [DeclaredFields.Statement, Machine.declared, Machine.memKind, Machine.branchKind, Machine.Declared.nothing]

theorem DeclaredFields.addI (sh : BitVec 1) (imm12 : BitVec 12) (rn rd : Reg) :
    DeclaredFields.Statement (.addI sh imm12 rn rd) := DeclaredFields.holds _

theorem DeclaredFields.addsI (sh : BitVec 1) (imm12 : BitVec 12) (rn rd : Reg) :
    DeclaredFields.Statement (.addsI sh imm12 rn rd) := DeclaredFields.holds _

theorem DeclaredFields.subI (sh : BitVec 1) (imm12 : BitVec 12) (rn rd : Reg) :
    DeclaredFields.Statement (.subI sh imm12 rn rd) := DeclaredFields.holds _

theorem DeclaredFields.cmpI (sh : BitVec 1) (imm12 : BitVec 12) (rn : Reg) :
    DeclaredFields.Statement (.cmpI sh imm12 rn) := DeclaredFields.holds _

theorem DeclaredFields.subsI (sh : BitVec 1) (imm12 : BitVec 12) (rn rd : Reg) :
    DeclaredFields.Statement (.subsI sh imm12 rn rd) := DeclaredFields.holds _

theorem DeclaredFields.addSR (shift : ShiftType) (rm : Reg) (imm6 : BitVec 6) (rn rd : Reg) :
    DeclaredFields.Statement (.addSR shift rm imm6 rn rd) := DeclaredFields.holds _

theorem DeclaredFields.addsSR (shift : ShiftType) (rm : Reg) (imm6 : BitVec 6) (rn rd : Reg) :
    DeclaredFields.Statement (.addsSR shift rm imm6 rn rd) := DeclaredFields.holds _

theorem DeclaredFields.subSR (shift : ShiftType) (rm : Reg) (imm6 : BitVec 6) (rn rd : Reg) :
    DeclaredFields.Statement (.subSR shift rm imm6 rn rd) := DeclaredFields.holds _

theorem DeclaredFields.cmpSR (shift : ShiftType) (rm : Reg) (imm6 : BitVec 6) (rn : Reg) :
    DeclaredFields.Statement (.cmpSR shift rm imm6 rn) := DeclaredFields.holds _

theorem DeclaredFields.subsSR (shift : ShiftType) (rm : Reg) (imm6 : BitVec 6) (rn rd : Reg) :
    DeclaredFields.Statement (.subsSR shift rm imm6 rn rd) := DeclaredFields.holds _

theorem DeclaredFields.addER (rm : Reg) (option : Extend) (imm3 : BitVec 3) (rn rd : Reg) :
    DeclaredFields.Statement (.addER rm option imm3 rn rd) := DeclaredFields.holds _

theorem DeclaredFields.addsER (rm : Reg) (option : Extend) (imm3 : BitVec 3) (rn rd : Reg) :
    DeclaredFields.Statement (.addsER rm option imm3 rn rd) := DeclaredFields.holds _

theorem DeclaredFields.subER (rm : Reg) (option : Extend) (imm3 : BitVec 3) (rn rd : Reg) :
    DeclaredFields.Statement (.subER rm option imm3 rn rd) := DeclaredFields.holds _

theorem DeclaredFields.cmpER (rm : Reg) (option : Extend) (imm3 : BitVec 3) (rn : Reg) :
    DeclaredFields.Statement (.cmpER rm option imm3 rn) := DeclaredFields.holds _

theorem DeclaredFields.subsER (rm : Reg) (option : Extend) (imm3 : BitVec 3) (rn rd : Reg) :
    DeclaredFields.Statement (.subsER rm option imm3 rn rd) := DeclaredFields.holds _

theorem DeclaredFields.andSR (shift : ShiftType) (rm : Reg) (imm6 : BitVec 6) (rn rd : Reg) :
    DeclaredFields.Statement (.andSR shift rm imm6 rn rd) := DeclaredFields.holds _

theorem DeclaredFields.andsSR (shift : ShiftType) (rm : Reg) (imm6 : BitVec 6) (rn rd : Reg) :
    DeclaredFields.Statement (.andsSR shift rm imm6 rn rd) := DeclaredFields.holds _

theorem DeclaredFields.orrSR (shift : ShiftType) (rm : Reg) (imm6 : BitVec 6) (rn rd : Reg) :
    DeclaredFields.Statement (.orrSR shift rm imm6 rn rd) := DeclaredFields.holds _

theorem DeclaredFields.eorSR (shift : ShiftType) (rm : Reg) (imm6 : BitVec 6) (rn rd : Reg) :
    DeclaredFields.Statement (.eorSR shift rm imm6 rn rd) := DeclaredFields.holds _

theorem DeclaredFields.lslI (shamt : BitVec 6) (rn rd : Reg) :
    DeclaredFields.Statement (.lslI shamt rn rd) := DeclaredFields.holds _

theorem DeclaredFields.lsrI (shamt : BitVec 6) (rn rd : Reg) :
    DeclaredFields.Statement (.lsrI shamt rn rd) := DeclaredFields.holds _

theorem DeclaredFields.movz (hw : BitVec 2) (imm16 : BitVec 16) (rd : Reg) :
    DeclaredFields.Statement (.movz hw imm16 rd) := DeclaredFields.holds _

theorem DeclaredFields.mul (rm rn rd : Reg) :
    DeclaredFields.Statement (.mul rm rn rd) := DeclaredFields.holds _

theorem DeclaredFields.ldurX (imm9 : BitVec 9) (rn rt : Reg) :
    DeclaredFields.Statement (.ldurX imm9 rn rt) := DeclaredFields.holds _

theorem DeclaredFields.ldurW (imm9 : BitVec 9) (rn rt : Reg) :
    DeclaredFields.Statement (.ldurW imm9 rn rt) := DeclaredFields.holds _

theorem DeclaredFields.ldurh (imm9 : BitVec 9) (rn rt : Reg) :
    DeclaredFields.Statement (.ldurh imm9 rn rt) := DeclaredFields.holds _

theorem DeclaredFields.ldurb (imm9 : BitVec 9) (rn rt : Reg) :
    DeclaredFields.Statement (.ldurb imm9 rn rt) := DeclaredFields.holds _

theorem DeclaredFields.sturX (imm9 : BitVec 9) (rn rt : Reg) :
    DeclaredFields.Statement (.sturX imm9 rn rt) := DeclaredFields.holds _

theorem DeclaredFields.sturW (imm9 : BitVec 9) (rn rt : Reg) :
    DeclaredFields.Statement (.sturW imm9 rn rt) := DeclaredFields.holds _

theorem DeclaredFields.sturh (imm9 : BitVec 9) (rn rt : Reg) :
    DeclaredFields.Statement (.sturh imm9 rn rt) := DeclaredFields.holds _

theorem DeclaredFields.sturb (imm9 : BitVec 9) (rn rt : Reg) :
    DeclaredFields.Statement (.sturb imm9 rn rt) := DeclaredFields.holds _

theorem DeclaredFields.b (imm26 : BitVec 26) :
    DeclaredFields.Statement (.b imm26) := DeclaredFields.holds _

theorem DeclaredFields.br (rn : Reg) :
    DeclaredFields.Statement (.br rn) := DeclaredFields.holds _

theorem DeclaredFields.bEQ (imm19 : BitVec 19) :
    DeclaredFields.Statement (.bEQ imm19) := DeclaredFields.holds _

theorem DeclaredFields.bNE (imm19 : BitVec 19) :
    DeclaredFields.Statement (.bNE imm19) := DeclaredFields.holds _

theorem DeclaredFields.bGE (imm19 : BitVec 19) :
    DeclaredFields.Statement (.bGE imm19) := DeclaredFields.holds _

theorem DeclaredFields.bLT (imm19 : BitVec 19) :
    DeclaredFields.Statement (.bLT imm19) := DeclaredFields.holds _

theorem DeclaredFields.bGT (imm19 : BitVec 19) :
    DeclaredFields.Statement (.bGT imm19) := DeclaredFields.holds _

theorem DeclaredFields.bLE (imm19 : BitVec 19) :
    DeclaredFields.Statement (.bLE imm19) := DeclaredFields.holds _

theorem DeclaredFields.cbz (imm19 : BitVec 19) (rt : Reg) :
    DeclaredFields.Statement (.cbz imm19 rt) := DeclaredFields.holds _

theorem DeclaredFields.cbnz (imm19 : BitVec 19) (rt : Reg) :
    DeclaredFields.Statement (.cbnz imm19 rt) := DeclaredFields.holds _

theorem DeclaredFields.hlt (imm16 : BitVec 16) :
    DeclaredFields.Statement (.hlt imm16) := DeclaredFields.holds _

end Sys2Proof.Laws
end

