-- ==== Sys2Proof/Laws/Pipeline.lean ====
section
/-! SUPPORT. What one cycle can do: the inversion of `andThen`, of `settle` and of `step`. -/

namespace Sys2Proof.Machine

/-- All that a sequenced part of a cycle can do: end on a fault, or go on. -/
theorem andThen_next {o : Out} {k : State → Out} {t : State} (h : andThen o k = .next t) :
    ∃ m, o = .next m ∧ ((m.fault.isSome = true ∧ t = m) ∨ (m.fault = none ∧ k m = .next t)) := by
  unfold andThen at h
  split at h
  · rename_i m
    refine ⟨m, rfl, ?_⟩
    split at h
    · rename_i hf; cases h; exact .inl ⟨hf, rfl⟩
    · rename_i hf; exact .inr ⟨by simpa using hf, h⟩
  · cases h
  · cases h

theorem andThen_ok {m : State} {k : State → Out} (h : m.fault = none) : andThen (.next m) k = k m := by
  simp [andThen, h]

/-- A stopped or faulted machine stays as it is (R132). -/
theorem step_of_stopped {s : State} (h : s.stopped = true) : step s = .next s := by
  simp [step, cycle, h]

theorem step_of_running {s : State} (h : s.stopped = false) : step s = settle s (runStages s) := by
  simp [step, cycle, h]

/-- All that a cycle can do: take a fault from its start-of-cycle state (R351), or end normally with no fault. -/
theorem settle_next {s t : State} {o : Out} (h : settle s o = .next t) :
    (∃ m f, o = .next m ∧ m.fault = some f ∧ t = takeFault s f) ∨ (o = .next t ∧ t.fault = none) := by
  unfold settle at h
  split at h
  · rename_i m
    split at h
    · rename_i r hr; cases h; exact .inl ⟨m, r, rfl, hr, rfl⟩
    · rename_i hr; cases h; exact .inr ⟨rfl, hr⟩
  · cases h
  · cases h

/-- How a cycle that raises no fault ends, with the state after each stage (R131): a freeze, a squash, a load-use stall,
or a fetch. -/
inductive CycleEnd (s t : State) : Prop where
  | freeze (m1 m2 : State) (l : Latch)
      (hwb : writeBackStage s.atCycleStart = .next m1) (h1 : m1.fault = none)
      (hmem : memoryStage m1 = .next m2) (h2 : m2.fault = none) (hs : m2.ctl.memStall = true)
      (hl : heldDeex m2 = .ok l)
      (ht : t = endOfCycle ((((m2.putExmem m2.prev.exmem).putDeex l).putIfde m2.prev.ifde).setNextPc m2.pc))
  | squash (m1 m2 m3 : State)
      (hwb : writeBackStage s.atCycleStart = .next m1) (h1 : m1.fault = none)
      (hmem : memoryStage m1 = .next m2) (h2 : m2.fault = none) (hs : m2.ctl.memStall = false)
      (hex : executeStage m2 = .next m3) (h3 : m3.fault = none) (hc : m3.ctl.clearDecode = true)
      (ht : t = endOfCycle (squashMux m3))
  | stall (m1 m2 m3 m4 : State)
      (hwb : writeBackStage s.atCycleStart = .next m1) (h1 : m1.fault = none)
      (hmem : memoryStage m1 = .next m2) (h2 : m2.fault = none) (hs : m2.ctl.memStall = false)
      (hex : executeStage m2 = .next m3) (h3 : m3.fault = none) (hc : m3.ctl.clearDecode = false)
      (hde : decodeStage m3 = .next m4) (h4 : m4.fault = none) (hls : m4.ctl.loadStall = true)
      (ht : t = endOfCycle (stallMux m4))
  | fetch (m1 m2 m3 m4 : State)
      (hwb : writeBackStage s.atCycleStart = .next m1) (h1 : m1.fault = none)
      (hmem : memoryStage m1 = .next m2) (h2 : m2.fault = none) (hs : m2.ctl.memStall = false)
      (hex : executeStage m2 = .next m3) (h3 : m3.fault = none) (hc : m3.ctl.clearDecode = false)
      (hde : decodeStage m3 = .next m4) (h4 : m4.fault = none) (hls : m4.ctl.loadStall = false)
      (ht : t = endOfCycle (fetchStage m4))

theorem freezeMux_next {s t : State} (h : freezeMux s = .next t) :
    (∃ f, t = { s with fault := some f }) ∨
      ∃ l, heldDeex s = .ok l ∧
        t = (((s.putExmem s.prev.exmem).putDeex l).putIfde s.prev.ifde).setNextPc s.pc := by
  unfold freezeMux raise at h
  split at h
  · cases h; exact .inl ⟨_, rfl⟩
  · rename_i l hl; cases h; exact .inr ⟨l, hl, rfl⟩

/-- ALL THAT A STEP CAN DO on a running machine: take a fault, or end in one of the four ways. -/
theorem step_cases {s t : State} (hr : s.running = true) (h : step s = .next t) :
    (∃ f, t = takeFault s f) ∨ (t.fault = none ∧ CycleEnd s t) := by
  have hst : s.stopped = false := by simpa [State.running] using hr
  rw [step_of_running hst] at h
  rcases settle_next h with ⟨m, f, _, _, rfl⟩ | ⟨h, hf⟩
  · exact .inl ⟨f, rfl⟩
  refine .inr ⟨hf, ?_⟩
  have stop : ∀ {m : State}, m.fault.isSome = true → t = m → False := fun h e => by subst e; simp [hf] at h
  obtain ⟨m1, hwb, ⟨hx, e⟩ | ⟨h1, h⟩⟩ := andThen_next h
  · exact (stop hx e).elim
  obtain ⟨m2, hmem, ⟨hx, e⟩ | ⟨h2, h⟩⟩ := andThen_next h
  · exact (stop hx e).elim
  unfold afterMemory at h
  split at h
  · rename_i hs
    obtain ⟨m3, hfz, ⟨hx, e⟩ | ⟨h3, h⟩⟩ := andThen_next h
    · exact (stop hx e).elim
    rcases freezeMux_next hfz with ⟨f, rfl⟩ | ⟨l, hl, rfl⟩
    · simp at h3
    · cases h; exact .freeze m1 m2 l hwb h1 hmem h2 hs hl rfl
  rename_i hs
  have hs : m2.ctl.memStall = false := by simpa using hs
  obtain ⟨m3, hex, ⟨hx, e⟩ | ⟨h3, h⟩⟩ := andThen_next h
  · exact (stop hx e).elim
  unfold afterExecute at h
  split at h
  · rename_i hc; cases h; exact .squash m1 m2 m3 hwb h1 hmem h2 hs hex h3 hc rfl
  rename_i hc
  have hc : m3.ctl.clearDecode = false := by simpa using hc
  obtain ⟨m4, hde, ⟨hx, e⟩ | ⟨h4, h⟩⟩ := andThen_next h
  · exact (stop hx e).elim
  unfold afterDecode at h
  split at h
  · rename_i hls; cases h; exact .stall m1 m2 m3 m4 hwb h1 hmem h2 hs hex h3 hc hde h4 hls rfl
  · rename_i hls; cases h; exact .fetch m1 m2 m3 m4 hwb h1 hmem h2 hs hex h3 hc hde h4 (by simpa using hls) rfl

/-! ### The four stages, by their latch -/

/-- What write-back does to the state (R134). -/
theorem writeBackStage_next {s m : State} (h : writeBackStage s = .next m) :
    (s.prev.memwb = none ∧ m = s.atStage .wb) ∨
      ∃ op, s.prev.memwb = some op ∧
        m = commit op.tag.declared op.tag.halts op (s.atStage .wb) := by
  unfold writeBackStage at h
  split at h
  · rename_i hl; cases h; exact .inl ⟨hl, rfl⟩
  · rename_i op hl
    refine .inr ⟨op, hl, ?_⟩
    unfold runTag at h
    split at h
    · rename_i i hi
      rw [exec_writeBack (op := op) rfl (by simpa using hl)] at h
      cases h; simp only [hi]; rfl
    · rename_i hi
      simp only [execUnknown, inStage_wb (s := s.atStage .wb) (op := op) rfl (by simpa using hl)] at h
      cases h; simp only [hi]; rfl

/-- Write-back always goes on (R353: it raises no fault). -/
theorem writeBackStage_total (s : State) : ∃ m, writeBackStage s = .next m := by
  unfold writeBackStage
  split
  · exact ⟨_, rfl⟩
  · rename_i op hl
    unfold runTag
    split
    · rw [exec_writeBack (op := op) rfl (by simpa using hl)]; exact ⟨_, rfl⟩
    · simp only [execUnknown, inStage_wb (s := s.atStage .wb) (op := op) rfl (by simpa using hl)]
      exact ⟨_, rfl⟩

/-- What the memory stage does to the state (R135 to R138). -/
theorem memoryStage_next {s m : State} (h : memoryStage s = .next m) (hf : m.fault = none) :
    (s.prev.exmem = none ∧ m = (s.atStage .mem).putMemwb none) ∨
      ∃ op, s.prev.exmem = some op ∧
        (m = (s.atStage .mem).putMemwb (some op) ∨
          (∃ c, m = (((s.atStage .mem).setDc c).putMemwb none).raiseMemStall) ∨
          (∃ c w, m = ((s.atStage .mem).setDc c).putMemwb (some { op with memVal := memRead s.mem op.memAddr w })) ∨
          (∃ c w i, op.tag = .instr i ∧ memKind i = .store w ∧ accessAdmitted s.cfg op.memAddr w = true ∧
            m = (((s.atStage .mem).setDc c).setMem (memWrite s.mem op.memAddr op.memVal w)).putMemwb (some op))) := by
  unfold memoryStage at h
  split at h
  · rename_i hl; cases h; exact .inl ⟨hl, rfl⟩
  · rename_i op hl
    refine .inr ⟨op, hl, ?_⟩
    unfold runTag at h
    split at h
    · rename_i i hi
      rw [exec_memory (op := op) rfl (by simpa using hl)] at h
      split at h
      · cases h; exact .inl rfl
      · rcases memAccess_next h with ⟨_, rfl⟩ | ⟨_, _, rfl⟩ | ⟨_, _, rfl⟩
        · simp at hf
        · exact .inr (.inl ⟨_, rfl⟩)
        · exact .inr (.inr (.inl ⟨_, _, rfl⟩))
      · rename_i w hk
        rcases memAccess_next h with ⟨_, rfl⟩ | ⟨_, _, rfl⟩ | ⟨ha, _, rfl⟩
        · simp at hf
        · exact .inr (.inl ⟨_, rfl⟩)
        · exact .inr (.inr (.inr ⟨_, w, i, hi, hk, ha, rfl⟩))
    · simp only [execUnknown, inStage_mem (s := s.atStage .mem) (op := op) rfl (by simpa using hl)] at h
      cases h; exact .inl rfl

/-- What execute does to the state when it raises no fault (R140). -/
theorem executeStage_next {s m : State} (h : executeStage s = .next m) (hf : m.fault = none) :
    (s.prev.deex = none ∧ m = (s.atStage .ex).putExmem none) ∨
      (∃ op o o', s.prev.deex = some op ∧ forward op.tag.declared s.prev op = .ok o ∧ o'.tag = op.tag ∧ o'.pc = op.pc ∧
        m = (s.atStage .ex).putExmem (some o')) ∨
      (∃ op o o' i c, s.prev.deex = some op ∧ op.tag = .instr i ∧ branchKind i = some c ∧
        forward op.tag.declared s.prev op = .ok o ∧ o'.tag = op.tag ∧ o'.pc = op.pc ∧ o'.phtIdx = op.phtIdx ∧
        o'.predPc = op.predPc ∧ aligned4 (resolvedPc o') = true ∧
        m = ((s.atStage .ex).putExmem (some o')).putResolved (o'.predPc != resolvedPc o') (resolvedPc o')
          (predUpdate s.cfg s.bp c o')) := by
  unfold executeStage at h
  split at h
  · rename_i hl; cases h; exact .inl ⟨hl, rfl⟩
  · rename_i op hl
    right
    unfold runTag at h
    split at h
    · rename_i i hi
      rcases hb : branchKind i with _ | c
      · obtain ⟨f, hf', hk⟩ := exec_execute (i := i) (s := s.atStage .ex) (op := op) rfl (by simpa using hl) hb
        rw [hf'] at h
        rcases exStage_next h with ⟨_, rfl⟩ | ⟨o, ho, rfl⟩
        · simp at hf
        · obtain ⟨a, b, c, _, _, _, e⟩ := forward_ok ho
          exact .inl ⟨op, o, f o, hl, by rw [hi]; exact ho, by rw [(hk o).1, e], by rw [(hk o).2.1, e], rfl⟩
      · obtain ⟨tg, tk, he⟩ := exec_execute_branch (i := i) (s := s.atStage .ex) (op := op) rfl (by simpa using hl) hb
        rw [he] at h
        rcases exBranch_next h with ⟨f, rfl⟩ | ⟨o, o', ho, rfl, ha, rfl⟩
        · simp at hf
        · obtain ⟨a, b, c', _, _, _, e⟩ := forward_ok ho
          exact .inr ⟨op, o, { o with target := tg o, taken := tk (s.atStage .ex) o }, i, c, hl, hi, hb,
            by rw [hi]; exact ho, by rw [e], by rw [e], by rw [e], by rw [e], ha, rfl⟩
    · rename_i hi
      simp only [execUnknown, inStage_ex (s := s.atStage .ex) (op := op) rfl (by simpa using hl)] at h
      rcases exStage_next h with ⟨_, rfl⟩ | ⟨o, ho, rfl⟩
      · simp at hf
      · obtain ⟨a, b, c, _, _, _, e⟩ := forward_ok ho
        exact .inl ⟨op, o, o, hl, by rw [hi]; exact ho, by rw [e], by rw [e], rfl⟩

/-- What decode does to the state when it raises no fault (R143 to R145). -/
theorem decodeStage_next {s m : State} (h : decodeStage s = .next m) (hf : m.fault = none) :
    (s.prev.ifde = none ∧ m = (s.atStage .de).putDeex none) ∨
      ∃ op, s.prev.ifde = some op ∧ op.fetchFault = false ∧
        ((loadUse (tagOfWord op.word).declared s.prev.deex = true ∧ m = (s.atStage .de).raiseLoadStall) ∨
          (loadUse (tagOfWord op.word).declared s.prev.deex = false ∧
            (m = (s.atStage .de).putDeex (some (decodedOp (tagOfWord op.word) s op)) ∨
              m = ((s.atStage .de).putDeex (some (decodedOp (tagOfWord op.word) s op))).setHalt))) := by
  unfold decodeStage raise at h
  split at h
  · rename_i hl; cases h; exact .inl ⟨hl, rfl⟩
  · rename_i op hl
    right
    split at h
    · cases h; simp at hf
    rename_i hff
    refine ⟨op, hl, by simpa using hff, ?_⟩
    unfold runTag at h
    split at h
    · rename_i i hi
      rw [exec_decode (op := op) rfl (by simpa using hl)] at h
      rw [hi]
      split at h
      · unfold deHalt at h
        split at h
        · rename_i hu; cases h; exact .inl ⟨hu, rfl⟩
        · rename_i hu; cases h; exact .inr ⟨by simpa using hu, .inr rfl⟩
      · rcases deStage_next h with ⟨hu, rfl⟩ | ⟨hu, rfl⟩
        · exact .inl ⟨hu, rfl⟩
        · exact .inr ⟨hu, .inl rfl⟩
    · rename_i hi
      simp only [execUnknown, inStage_de (s := s.atStage .de) (op := op) rfl (by simpa using hl)] at h
      rw [hi]
      rcases deStage_next h with ⟨hu, rfl⟩ | ⟨hu, rfl⟩
      · exact .inl ⟨hu, rfl⟩
      · exact .inr ⟨hu, .inl rfl⟩

/-- All that the fetch stage can do (R146, R147): it writes IF→DE, the next PC and the instruction cache. -/
theorem fetchStage_cases (s : State) :
    (s.halt = true ∧ fetchStage s = ((s.atStage .fetch).putIfde none).setNextPc s.pc) ∨
      (s.halt = false ∧ admitted s.cfg s.pc = false ∧
        fetchStage s = ((s.atStage .fetch).putIfde (some (fetchFaultOp s.pc))).setNextPc s.pc) ∨
      (s.halt = false ∧ admitted s.cfg s.pc = true ∧ (cacheAccess .instruction s.cfg.ic s.ic s.pc).2 = false ∧
        fetchStage s = (((s.atStage .fetch).setIc (cacheAccess .instruction s.cfg.ic s.ic s.pc).1).putIfde none).setNextPc
          s.pc) ∨
      (s.halt = false ∧ admitted s.cfg s.pc = true ∧ (cacheAccess .instruction s.cfg.ic s.ic s.pc).2 = true ∧
        fetchStage s = (((s.atStage .fetch).setIc (cacheAccess .instruction s.cfg.ic s.ic s.pc).1).putIfde
          (some (fetchedOp (read32 s.mem s.pc) s.pc (predict s.cfg s.bp s.pc)))).setNextPc
            (predict s.cfg s.bp s.pc).next) := by
  by_cases hh : s.halt = true
  · exact .inl ⟨hh, if_pos hh⟩
  have hh' : s.halt = false := by simpa using hh
  by_cases ha : admitted s.cfg s.pc = true
  · by_cases hc : (cacheAccess .instruction s.cfg.ic s.ic s.pc).2 = true
    · exact .inr (.inr (.inr ⟨hh', ha, hc, (if_neg hh).trans ((if_pos ha).trans (if_pos hc))⟩))
    · exact .inr (.inr (.inl ⟨hh', ha, by simpa using hc, (if_neg hh).trans ((if_pos ha).trans (if_neg hc))⟩))
  · exact .inr (.inl ⟨hh', by simpa using ha, (if_neg hh).trans (if_neg ha)⟩)

/-! ### What each stage leaves alone -/

/-- What no stage before fetch changes. -/
structure Keeps (s m : State) : Prop where
  cfg : m.cfg = s.cfg
  pc : m.pc = s.pc
  prev : m.prev = s.prev
  bp : m.bp = s.bp
  ic : m.ic = s.ic
  cycles : m.cycles = s.cycles
  squashes : m.squashes = s.squashes
  nextPc : m.ctl.nextPc = s.ctl.nextPc

/-- Only write-back changes the registers, the flags, the run-stop condition and the retired count. -/
structure KeepsArchitecture (s m : State) : Prop where
  x : m.x = s.x
  z : m.z = s.z
  n : m.n = s.n
  runStop : m.runStop = s.runStop
  retired : m.retired = s.retired

theorem Keeps.trans {a b c : State} (h : Keeps a b) (k : Keeps b c) : Keeps a c :=
  ⟨k.cfg.trans h.cfg, k.pc.trans h.pc, k.prev.trans h.prev, k.bp.trans h.bp, k.ic.trans h.ic, k.cycles.trans h.cycles,
    k.squashes.trans h.squashes, k.nextPc.trans h.nextPc⟩

theorem KeepsArchitecture.trans {a b c : State} (h : KeepsArchitecture a b) (k : KeepsArchitecture b c) :
    KeepsArchitecture a c :=
  ⟨k.x.trans h.x, k.z.trans h.z, k.n.trans h.n, k.runStop.trans h.runStop, k.retired.trans h.retired⟩

theorem KeepsArchitecture.reg {s m : State} (h : KeepsArchitecture s m) (r : Reg) : m.reg r = s.reg r := by
  simp only [State.reg, h.x]

/-- The fields of a commit (R134). -/
theorem commit_keeps (d : Declared) (halt : Bool) (op : MicroOp) (s : State) :
    Keeps s (commit d halt op s) ∧ (commit d halt op s).mem = s.mem ∧ (commit d halt op s).dc = s.dc ∧
      (commit d halt op s).cur = s.cur ∧ (commit d halt op s).ctl = s.ctl ∧ (commit d halt op s).halt = s.halt ∧
      (commit d halt op s).fault = s.fault := by
  rw [commit_eq]
  exact ⟨⟨rfl, rfl, rfl, rfl, rfl, rfl, rfl, rfl⟩, rfl, rfl, rfl, rfl, rfl, rfl⟩

/-- What write-back leaves alone (R134): everything but the registers, the flags, the run-stop condition and the count. -/
theorem writeBackStage_frame {s m : State} (h : writeBackStage s = .next m) :
    Keeps s m ∧ m.mem = s.mem ∧ m.dc = s.dc ∧ m.cur = s.cur ∧ m.ctl = s.ctl ∧ m.halt = s.halt ∧ m.fault = s.fault := by
  rcases writeBackStage_next h with ⟨_, rfl⟩ | ⟨op, _, rfl⟩
  · exact ⟨⟨rfl, rfl, rfl, rfl, rfl, rfl, rfl, rfl⟩, rfl, rfl, rfl, rfl, rfl, rfl⟩
  · obtain ⟨k, h⟩ := commit_keeps op.tag.declared op.tag.halts op (s.atStage .wb)
    exact ⟨⟨k.cfg, k.pc, k.prev, k.bp, k.ic, k.cycles, k.squashes, k.nextPc⟩, h⟩

/-- What the memory stage leaves alone (R135 to R138): everything but the memory, the data cache, MEM→WB and the stall
signal. -/
theorem memoryStage_frame {s m : State} (h : memoryStage s = .next m) (hf : m.fault = none) :
    Keeps s m ∧ KeepsArchitecture s m ∧ m.halt = s.halt ∧ m.cur = { s.cur with memwb := m.cur.memwb } ∧
      (m.ctl = s.ctl ∨ m.ctl = { s.ctl with memStall := true, updateExecuteWithSavedOp := true }) := by
  rcases memoryStage_next h hf with ⟨_, rfl⟩ | ⟨op, _, rfl | ⟨c, rfl⟩ | ⟨c, w, rfl⟩ | ⟨c, w, i, _, _, _, rfl⟩⟩
  · exact ⟨⟨rfl, rfl, rfl, rfl, rfl, rfl, rfl, rfl⟩, ⟨rfl, rfl, rfl, rfl, rfl⟩, rfl, rfl, .inl rfl⟩
  · exact ⟨⟨rfl, rfl, rfl, rfl, rfl, rfl, rfl, rfl⟩, ⟨rfl, rfl, rfl, rfl, rfl⟩, rfl, rfl, .inl rfl⟩
  · exact ⟨⟨rfl, rfl, rfl, rfl, rfl, rfl, rfl, rfl⟩, ⟨rfl, rfl, rfl, rfl, rfl⟩, rfl, rfl, .inr rfl⟩
  · exact ⟨⟨rfl, rfl, rfl, rfl, rfl, rfl, rfl, rfl⟩, ⟨rfl, rfl, rfl, rfl, rfl⟩, rfl, rfl, .inl rfl⟩
  · exact ⟨⟨rfl, rfl, rfl, rfl, rfl, rfl, rfl, rfl⟩, ⟨rfl, rfl, rfl, rfl, rfl⟩, rfl, rfl, .inl rfl⟩

/-- What execute leaves alone (R140): everything but EX→MEM and the report of a branch. -/
theorem executeStage_frame {s m : State} (h : executeStage s = .next m) (hf : m.fault = none) :
    Keeps s m ∧ KeepsArchitecture s m ∧ m.mem = s.mem ∧ m.dc = s.dc ∧ m.halt = s.halt ∧
      m.cur = { s.cur with exmem := m.cur.exmem } ∧ m.ctl.memStall = s.ctl.memStall ∧ m.ctl.loadStall = s.ctl.loadStall := by
  rcases executeStage_next h hf with ⟨_, rfl⟩ | ⟨op, o, o', _, _, _, _, rfl⟩ |
    ⟨op, o, o', i, c, _, _, _, _, _, _, _, _, _, rfl⟩
  · exact ⟨⟨rfl, rfl, rfl, rfl, rfl, rfl, rfl, rfl⟩, ⟨rfl, rfl, rfl, rfl, rfl⟩, rfl, rfl, rfl, rfl, rfl, rfl⟩
  · exact ⟨⟨rfl, rfl, rfl, rfl, rfl, rfl, rfl, rfl⟩, ⟨rfl, rfl, rfl, rfl, rfl⟩, rfl, rfl, rfl, rfl, rfl, rfl⟩
  · exact ⟨⟨rfl, rfl, rfl, rfl, rfl, rfl, rfl, rfl⟩, ⟨rfl, rfl, rfl, rfl, rfl⟩, rfl, rfl, rfl, rfl, rfl, rfl⟩

/-- What decode leaves alone (R143 to R145): everything but DE→EX, `HALT` and the load-use signal. -/
theorem decodeStage_frame {s m : State} (h : decodeStage s = .next m) (hf : m.fault = none) :
    Keeps s m ∧ KeepsArchitecture s m ∧ m.mem = s.mem ∧ m.dc = s.dc ∧ m.cur = { s.cur with deex := m.cur.deex } ∧
      m.ctl = { s.ctl with loadStall := m.ctl.loadStall } ∧ (m.halt = s.halt ∨ m.halt = true) := by
  rcases decodeStage_next h hf with ⟨_, rfl⟩ | ⟨op, _, _, ⟨_, rfl⟩ | ⟨_, rfl | rfl⟩⟩
  · exact ⟨⟨rfl, rfl, rfl, rfl, rfl, rfl, rfl, rfl⟩, ⟨rfl, rfl, rfl, rfl, rfl⟩, rfl, rfl, rfl, rfl, .inl rfl⟩
  · exact ⟨⟨rfl, rfl, rfl, rfl, rfl, rfl, rfl, rfl⟩, ⟨rfl, rfl, rfl, rfl, rfl⟩, rfl, rfl, rfl, rfl, .inl rfl⟩
  · exact ⟨⟨rfl, rfl, rfl, rfl, rfl, rfl, rfl, rfl⟩, ⟨rfl, rfl, rfl, rfl, rfl⟩, rfl, rfl, rfl, rfl, .inl rfl⟩
  · exact ⟨⟨rfl, rfl, rfl, rfl, rfl, rfl, rfl, rfl⟩, ⟨rfl, rfl, rfl, rfl, rfl⟩, rfl, rfl, rfl, rfl, .inr rfl⟩

/-- What the fetch stage leaves alone (R146, R147): everything but the instruction cache, IF→DE and the next PC. -/
theorem fetchStage_frame (s : State) :
    KeepsArchitecture s (fetchStage s) ∧ (fetchStage s).cfg = s.cfg ∧ (fetchStage s).pc = s.pc ∧
      (fetchStage s).prev = s.prev ∧ (fetchStage s).bp = s.bp ∧ (fetchStage s).mem = s.mem ∧
      (fetchStage s).dc = s.dc ∧ (fetchStage s).halt = s.halt ∧ (fetchStage s).cycles = s.cycles ∧
      (fetchStage s).squashes = s.squashes ∧ (fetchStage s).fault = s.fault ∧
      (fetchStage s).cur = { s.cur with ifde := (fetchStage s).cur.ifde } ∧
      (fetchStage s).ctl = { s.ctl with nextPc := (fetchStage s).ctl.nextPc } := by
  rcases fetchStage_cases s with ⟨_, h⟩ | ⟨_, _, h⟩ | ⟨_, _, _, h⟩ | ⟨_, _, _, h⟩ <;> rw [h] <;>
    exact ⟨⟨rfl, rfl, rfl, rfl, rfl⟩, rfl, rfl, rfl, rfl, rfl, rfl, rfl, rfl, rfl, rfl, rfl, rfl⟩

/-- What the squash mux leaves alone (R142): what the fetch stage does, but for the two bubbles, the resolved next PC and
the count. -/
theorem squashMux_frame (s : State) :
    KeepsArchitecture s (squashMux s) ∧ (squashMux s).cfg = s.cfg ∧ (squashMux s).bp = s.bp ∧
      (squashMux s).mem = s.mem ∧ (squashMux s).dc = s.dc ∧ (squashMux s).halt = s.halt ∧
      (squashMux s).cycles = s.cycles ∧ (squashMux s).squashes = s.squashes + 1#64 ∧ (squashMux s).fault = s.fault ∧
      (squashMux s).ic = (fetchStage s).ic ∧
      (squashMux s).cur = { s.cur with ifde := none, deex := none } ∧
      (squashMux s).ctl = { s.ctl with nextPc := some (s.ctl.resolved.getD s.pc) } := by
  obtain ⟨k, h1, _, _, h4, h5, h6, h7, h8, h9, h10, h11, h12⟩ := fetchStage_frame s
  refine ⟨⟨?_, ?_, ?_, ?_, ?_⟩, ?_, ?_, ?_, ?_, ?_, ?_, ?_, ?_, ?_, ?_, ?_⟩
  · simpa [squashMux] using k.x
  · simpa [squashMux] using k.z
  · simpa [squashMux] using k.n
  · simpa [squashMux] using k.runStop
  · simpa [squashMux] using k.retired
  · simpa [squashMux] using h1
  · simpa [squashMux] using h4
  · simpa [squashMux] using h5
  · simpa [squashMux] using h6
  · simpa [squashMux] using h7
  · simpa [squashMux] using h8
  · simp [squashMux, h9]
  · simpa [squashMux] using h10
  · simp [squashMux]
  · have e : (squashMux s).cur = { (fetchStage s).cur with ifde := none, deex := none } := by simp [squashMux]
    rw [e, h11]
  · have e : (squashMux s).ctl = { (fetchStage s).ctl with nextPc := some (s.ctl.resolved.getD s.pc) } := by
      simp [squashMux]
    rw [e, h12]

end Sys2Proof.Machine
end

