-- ==== Sys2Proof/Laws/Predictor.lean ====
section
/-! SUPPORT. Reading the predictor's tables after an update (spec/42_branch_predictor.md R217 to R220). -/

namespace Sys2Proof.Machine

/-- Every BTB entry after an update (R219). -/
theorem Predictor.entry_apply (p : Predictor) (u : PredUpdate) (j : Nat) :
    (p.apply u).entry j = if j = u.btbIdx then u.btbEntry else p.entry j :=
  tableGet_put _ _ _ _ _

/-- Every PHT counter after an update (R217). -/
theorem Predictor.counter_apply (p : Predictor) (u : PredUpdate) (j : Nat) :
    (p.apply u).counter j =
      match u.pht with
      | some (i, k) => if j = i then k else p.counter j
      | none => p.counter j := by
  unfold Predictor.counter Predictor.apply
  cases u.pht with
  | none => rfl
  | some e => exact tableGet_put _ _ _ _ _

@[simp] theorem Predictor.ghr_apply (p : Predictor) (u : PredUpdate) : (p.apply u).ghr = u.ghr.getD p.ghr := rfl

/-- An entry that is read as valid is listed. -/
theorem Predictor.mem_of_entry_valid {p : Predictor} {i : Nat} (h : (p.entry i).valid = true) :
    (i, p.entry i) ∈ p.btb := by
  unfold Predictor.entry tableGet at h ⊢
  cases hf : tableFind p.btb i with
  | none => rw [hf] at h; cases h
  | some e => exact mem_of_tableFind hf

/-- A property of every listed value survives a put. -/
theorem all_tablePut {β : Type} [DecidableEq β] (d : β) (q : Nat × β → Bool) (t : Table β) (a : Nat) (v : β)
    (ht : t.all q = true) (hv : q (a, v) = true) : (tablePut d t a v).all q = true := by
  unfold tablePut
  split
  · simp only [tableErase, List.all_eq_true, List.mem_filter] at ht ⊢
    exact fun e he => ht e he.1
  · exact all_insert q t a v ht hv

end Sys2Proof.Machine
end

