-- ==== Sys2Proof/Tests/Slice0.lean ====
section
/-! SUPPORT. Tests: the well-formedness smoke, the decoding of a word written out field by field for every constructor,
the vectors of spec/95_test_vectors.md level L2 on one stage each, and for every statement that has hypotheses a concrete
state and operands that meet them. Expected values are the spec's. -/

namespace Sys2Proof.Tests

open Sys2Proof.Machine

/-! ### Helpers -/

/-- The answer is a next state that `p` holds of. -/
def answers (o : Out) (p : State → Bool) : Bool :=
  match o with
  | .next t => p t
  | .fault _ => false
  | .refused _ => false

theorem next_of_answers {o : Out} {p : State → Bool} (h : answers o p = true) : ∃ t, o = .next t ∧ p t = true := by
  cases o with
  | next t => exact ⟨t, rfl, h⟩
  | fault f => exact absurd h Bool.false_ne_true
  | refused r => exact absurd h Bool.false_ne_true

/-- A micro-op of a tag at an address, predicted to the next word. -/
def opAt (t : Tag) (pc : Word) : MicroOp := { fetchedOp 0#32 pc ⟨pc + 4#64, true, 0⟩ with tag := t }

/-- A micro-op that fetch left in IF→DE. -/
def fetched (w : InstWord) (pc : Word) : MicroOp := fetchedOp w pc ⟨pc + 4#64, true, 0⟩

/-- Reset with other latches. -/
def latched (f d e m : Latch) : State := { State.reset with prev := ⟨f, d, e, m⟩ }

/-- The word at `pc` in the execute stage with these operand values and flags. -/
def inExecute (w : InstWord) (pc rn rm rt : Word) (z n : Bool) : State :=
  { latched none (some { opAt (tagOfWord w) pc with rnVal := rn, rmVal := rm, rtVal := rt }) none none with
    stage := .ex, z := z, n := n }

/-- What execute makes of it. -/
def executed (w : InstWord) (pc rn rm rt : Word) (z n : Bool) (p : MicroOp → Bool) : Bool :=
  answers (runTag (tagOfWord w) (inExecute w pc rn rm rt z n)) fun t => t.cur.exmem.any p

/-- An ALU vector: the operands and the result. -/
def alu (w : InstWord) (rn rm r : Word) : Bool := executed w 0#64 rn rm 0#64 false false fun op => op.result == r

/-- An ALU vector that sets the flags. -/
def aluFlags (w : InstWord) (rn rm r : Word) (z n : Bool) : Bool :=
  executed w 0#64 rn rm 0#64 false false fun op => op.result == r && op.fz == z && op.fn == n

/-- A branch vector: the address, the register operand, the flags and the resolved next PC. -/
def branch (w : InstWord) (pc rn rt : Word) (z n : Bool) (next : Word) : Bool :=
  executed w pc rn 0#64 rt z n fun op => resolvedPc op == next

/-- The memory of the load and store vectors (spec/95_test_vectors.md L2.2). -/
def vectorMemory : Memory :=
  loadWord (loadWord (loadWord (loadWord [] 0xFFC#64 0#32) 0x1000#64 0x44332211#32) 0x1004#64 0x88776655#32) 0x1008#64 0#32

/-- A data cache that holds the blocks of `0xFE0` and `0x1000`. -/
def warmData : Cache := install Config.default.dc (install Config.default.dc ⟨[], none⟩ 0x1000) 0xFE0

/-- A load or store in the memory stage at an address, with store data. -/
def inMemory (w : InstWord) (a v : Word) : State :=
  { latched none none (some { opAt (tagOfWord w) 0#64 with memAddr := a, memVal := v }) none with
    stage := .mem, mem := vectorMemory, dc := warmData }

/-- A load vector: the loaded value. -/
def loads (w : InstWord) (a v : Word) : Bool :=
  answers (runTag (tagOfWord w) (inMemory w a 0#64)) fun t => t.cur.memwb.any fun op => op.memVal == v

/-- A store vector: the words at `0x1000`, `0x1004` and `0x1008` after it. -/
def stores (w : InstWord) (a v : Word) (w0 w1 w2 : InstWord) : Bool :=
  answers (runTag (tagOfWord w) (inMemory w a v)) fun t =>
    read32 t.mem 0x1000#64 == w0 && read32 t.mem 0x1004#64 == w1 && read32 t.mem 0x1008#64 == w2

/-! ### Well-formedness: an ill-formed term for each check -/

theorem test_ill_ror_add : (Instr.addSR .ror 3#5 1#6 2#5 1#5).wellFormed = false := by decide
theorem test_ill_ror_cmp : (Instr.cmpSR .ror 3#5 1#6 2#5).wellFormed = false := by decide
theorem test_ill_extend_amount : (Instr.addER 3#5 .uxtb 5#3 2#5 1#5).wellFormed = false := by decide
theorem test_ill_extend_amount_cmp : (Instr.cmpER 3#5 .uxtb 7#3 2#5).wellFormed = false := by decide
theorem test_ill_subs_imm_zr : (Instr.subsI 0#1 5#12 2#5 31#5).wellFormed = false := by decide
theorem test_ill_subs_shifted_zr : (Instr.subsSR .lsl 3#5 0#6 2#5 31#5).wellFormed = false := by decide
theorem test_ill_subs_extended_zr : (Instr.subsER 3#5 .uxtb 4#3 2#5 31#5).wellFormed = false := by decide
theorem test_ill_lsl_zero : (Instr.lslI 0#6 2#5 1#5).wellFormed = false := by decide

/-! ### Decoding: a word written out field by field for every constructor (spec/30_encoding.md R91, R105) -/

theorem test_decode_addI :
    decode (0b100100010#9 ++ 1#1 ++ 0xFFF#12 ++ 2#5 ++ 1#5) = .instr (.addI 1#1 0xFFF#12 2#5 1#5) := by decide
theorem test_decode_addsI :
    decode (0b101100010#9 ++ 0#1 ++ 1#12 ++ 2#5 ++ 31#5) = .instr (.addsI 0#1 1#12 2#5 31#5) := by decide
theorem test_decode_subI :
    decode (0b110100010#9 ++ 0#1 ++ 0x800#12 ++ 31#5 ++ 1#5) = .instr (.subI 0#1 0x800#12 31#5 1#5) := by decide
theorem test_decode_cmpI :
    decode (0b111100010#9 ++ 1#1 ++ 5#12 ++ 2#5 ++ 0b11111#5) = .instr (.cmpI 1#1 5#12 2#5) := by decide
theorem test_decode_subsI :
    decode (0b111100010#9 ++ 0#1 ++ 5#12 ++ 2#5 ++ 30#5) = .instr (.subsI 0#1 5#12 2#5 30#5) := by decide
theorem test_decode_addSR :
    decode (0b10001011#8 ++ 0b00#2 ++ 0#1 ++ 3#5 ++ 4#6 ++ 2#5 ++ 1#5) = .instr (.addSR .lsl 3#5 4#6 2#5 1#5) := by decide
theorem test_decode_addsSR :
    decode (0b10101011#8 ++ 0b10#2 ++ 0#1 ++ 3#5 ++ 63#6 ++ 2#5 ++ 1#5) = .instr (.addsSR .asr 3#5 63#6 2#5 1#5) := by decide
theorem test_decode_subSR :
    decode (0b11001011#8 ++ 0b01#2 ++ 0#1 ++ 3#5 ++ 4#6 ++ 2#5 ++ 1#5) = .instr (.subSR .lsr 3#5 4#6 2#5 1#5) := by decide
theorem test_decode_cmpSR :
    decode (0b11101011#8 ++ 0b01#2 ++ 0#1 ++ 3#5 ++ 32#6 ++ 2#5 ++ 0b11111#5) = .instr (.cmpSR .lsr 3#5 32#6 2#5) := by decide
theorem test_decode_subsSR :
    decode (0b11101011#8 ++ 0b00#2 ++ 0#1 ++ 3#5 ++ 1#6 ++ 2#5 ++ 1#5) = .instr (.subsSR .lsl 3#5 1#6 2#5 1#5) := by decide
theorem test_decode_addER :
    decode (0b10001011001#11 ++ 3#5 ++ 0b011#3 ++ 4#3 ++ 2#5 ++ 1#5) = .instr (.addER 3#5 .uxtx 4#3 2#5 1#5) := by decide
theorem test_decode_addsER :
    decode (0b10101011001#11 ++ 3#5 ++ 0b100#3 ++ 2#3 ++ 2#5 ++ 1#5) = .instr (.addsER 3#5 .sxtb 2#3 2#5 1#5) := by decide
theorem test_decode_subER :
    decode (0b11001011001#11 ++ 3#5 ++ 0b010#3 ++ 0#3 ++ 2#5 ++ 1#5) = .instr (.subER 3#5 .uxtw 0#3 2#5 1#5) := by decide
theorem test_decode_cmpER :
    decode (0b11101011001#11 ++ 3#5 ++ 0b101#3 ++ 1#3 ++ 2#5 ++ 0b11111#5) = .instr (.cmpER 3#5 .sxth 1#3 2#5) := by decide
theorem test_decode_subsER :
    decode (0b11101011001#11 ++ 3#5 ++ 0b110#3 ++ 3#3 ++ 2#5 ++ 1#5) = .instr (.subsER 3#5 .sxtw 3#3 2#5 1#5) := by decide
theorem test_decode_andSR :
    decode (0b10001010#8 ++ 0b11#2 ++ 0#1 ++ 3#5 ++ 1#6 ++ 2#5 ++ 1#5) = .instr (.andSR .ror 3#5 1#6 2#5 1#5) := by decide
theorem test_decode_andsSR :
    decode (0b11101010#8 ++ 0b00#2 ++ 0#1 ++ 3#5 ++ 2#6 ++ 2#5 ++ 31#5) = .instr (.andsSR .lsl 3#5 2#6 2#5 31#5) := by decide
theorem test_decode_orrSR :
    decode (0b10101010#8 ++ 0b01#2 ++ 0#1 ++ 3#5 ++ 5#6 ++ 31#5 ++ 1#5) = .instr (.orrSR .lsr 3#5 5#6 31#5 1#5) := by decide
theorem test_decode_eorSR :
    decode (0b11001010#8 ++ 0b10#2 ++ 0#1 ++ 3#5 ++ 4#6 ++ 2#5 ++ 1#5) = .instr (.eorSR .asr 3#5 4#6 2#5 1#5) := by decide
theorem test_decode_lslI :
    decode (0b1101001101#10 ++ 60#6 ++ 59#6 ++ 2#5 ++ 1#5) = .instr (.lslI 4#6 2#5 1#5) := by decide
theorem test_decode_lsrI :
    decode (0b1101001101#10 ++ 4#6 ++ 63#6 ++ 2#5 ++ 1#5) = .instr (.lsrI 4#6 2#5 1#5) := by decide
theorem test_decode_movz :
    decode (0b110100101#9 ++ 3#2 ++ 0xABCD#16 ++ 1#5) = .instr (.movz 3#2 0xABCD#16 1#5) := by decide
theorem test_decode_mul :
    decode (0b10011011000#11 ++ 3#5 ++ 0b011111#6 ++ 2#5 ++ 1#5) = .instr (.mul 3#5 2#5 1#5) := by decide
theorem test_decode_ldurX :
    decode (0b11111000010#11 ++ 0x100#9 ++ 0b00#2 ++ 2#5 ++ 1#5) = .instr (.ldurX 0x100#9 2#5 1#5) := by decide
theorem test_decode_ldurW :
    decode (0b10111000010#11 ++ 1#9 ++ 0b00#2 ++ 2#5 ++ 1#5) = .instr (.ldurW 1#9 2#5 1#5) := by decide
theorem test_decode_ldurh :
    decode (0b01111000010#11 ++ 0x1FF#9 ++ 0b00#2 ++ 2#5 ++ 1#5) = .instr (.ldurh 0x1FF#9 2#5 1#5) := by decide
theorem test_decode_ldurb :
    decode (0b00111000010#11 ++ 7#9 ++ 0b00#2 ++ 2#5 ++ 1#5) = .instr (.ldurb 7#9 2#5 1#5) := by decide
theorem test_decode_sturX :
    decode (0b11111000000#11 ++ 2#9 ++ 0b00#2 ++ 2#5 ++ 3#5) = .instr (.sturX 2#9 2#5 3#5) := by decide
theorem test_decode_sturW :
    decode (0b10111000000#11 ++ 4#9 ++ 0b00#2 ++ 2#5 ++ 3#5) = .instr (.sturW 4#9 2#5 3#5) := by decide
theorem test_decode_sturh :
    decode (0b01111000000#11 ++ 3#9 ++ 0b00#2 ++ 2#5 ++ 3#5) = .instr (.sturh 3#9 2#5 3#5) := by decide
theorem test_decode_sturb :
    decode (0b00111000000#11 ++ 0#9 ++ 0b00#2 ++ 2#5 ++ 31#5) = .instr (.sturb 0#9 2#5 31#5) := by decide
theorem test_decode_b :
    decode (0b000101#6 ++ 0x2000001#26) = .instr (.b 0x2000001#26) := by decide
theorem test_decode_br :
    decode (0b1101011000011111000000#22 ++ 10#5 ++ 0b00000#5) = .instr (.br 10#5) := by decide
theorem test_decode_bEQ :
    decode (0b01010100#8 ++ 0x40000#19 ++ 0#1 ++ 0b0000#4) = .instr (.bEQ 0x40000#19) := by decide
theorem test_decode_bNE :
    decode (0b01010100#8 ++ 0x7FFFE#19 ++ 0#1 ++ 0b0001#4) = .instr (.bNE 0x7FFFE#19) := by decide
theorem test_decode_bGE :
    decode (0b01010100#8 ++ 4#19 ++ 0#1 ++ 0b1010#4) = .instr (.bGE 4#19) := by decide
theorem test_decode_bLT :
    decode (0b01010100#8 ++ 4#19 ++ 0#1 ++ 0b1011#4) = .instr (.bLT 4#19) := by decide
theorem test_decode_bGT :
    decode (0b01010100#8 ++ 3#19 ++ 0#1 ++ 0b1100#4) = .instr (.bGT 3#19) := by decide
theorem test_decode_bLE :
    decode (0b01010100#8 ++ 3#19 ++ 0#1 ++ 0b1101#4) = .instr (.bLE 3#19) := by decide
theorem test_decode_cbz :
    decode (0b10110100#8 ++ 0x3FFFF#19 ++ 1#5) = .instr (.cbz 0x3FFFF#19 1#5) := by decide
theorem test_decode_cbnz :
    decode (0b10110101#8 ++ 0x7FFFE#19 ++ 31#5) = .instr (.cbnz 0x7FFFE#19 31#5) := by decide
theorem test_decode_hlt :
    decode (0b11010100010#11 ++ 0x1234#16 ++ 0b00000#5) = .instr (.hlt 0x1234#16) := by decide

/-- Words that decode as `UNKNOWN` (spec/95_test_vectors.md L2.4). -/
def unknownWords : List InstWord :=
  [0x00000000#32, 0xD503201F#32, 0x94000001#32, 0xD65F03C0#32, 0xD3441C41#32, 0x8BC30441#32, 0x8B231441#32, 0x54000042#32,
    0x11000441#32, 0x8A230041#32, 0xB8800041#32, 0x92800001#32, 0xF8400441#32]

theorem test_unknown_words : unknownWords.all (fun w => decide (tagOfWord w = .unknown)) = true := by decide

/-- The bytes of an instruction lie least significant first (spec/20_memory.md R62). -/
theorem test_decode_table_word : decodeTableWord 32 0xD28000A0 = some (.movz 0#2 5#16 0#5) := by decide
theorem test_decode_bytes : decodeBytes [0xA0#8, 0x00#8, 0x80#8, 0xD2#8] = .instr (.movz 0#2 5#16 0#5) := by decide
theorem test_decode_truncated : decodeBytes [0xA0#8, 0x00#8, 0x80#8] = .rejected .truncated := by decide

/-! ### Execute: the ALU vectors (spec/95_test_vectors.md L2.1) -/

theorem test_add_i_A1 : alu 0x917FFC41#32 1#64 0#64 0xFFF001#64 = true := by decide
theorem test_adds_i_A4 : aluFlags 0xB1000441#32 0xFFFFFFFFFFFFFFFF#64 0#64 0#64 true false = true := by decide
theorem test_sub_i_A6 : alu 0xD1000441#32 0#64 0#64 0xFFFFFFFFFFFFFFFF#64 = true := by decide
theorem test_subs_i_A7 : aluFlags 0xF1001441#32 5#64 0#64 0#64 true false = true := by decide
theorem test_cmp_i_A8 : aluFlags 0xF100145F#32 3#64 0#64 0xFFFFFFFFFFFFFFFE#64 false true = true := by decide
theorem test_add_sr_lsr_A10 : alu 0x8B43FC41#32 0#64 0xFFFFFFFFFFFFFFFF#64 1#64 = true := by decide
theorem test_add_sr_lsl_A9 : alu 0x8B031041#32 1#64 1#64 0x11#64 = true := by decide
theorem test_adds_sr_asr_A12 : aluFlags 0xAB83FC41#32 0#64 0x8000000000000000#64 0xFFFFFFFFFFFFFFFF#64 false true = true := by decide
theorem test_sub_sr_A13 : alu 0xCB431041#32 0x100#64 0x100#64 0xF0#64 = true := by decide
theorem test_subs_sr_overflow_A14 : aluFlags 0xEB030041#32 0x8000000000000000#64 1#64 0x7FFFFFFFFFFFFFFF#64 false false = true := by decide
theorem test_cmp_sr_A16 : aluFlags 0xEB03005F#32 7#64 7#64 0#64 true false = true := by decide
theorem test_add_er_uxtb_A17 : alu 0x8B230041#32 0x1000#64 0x1FF#64 0x10FF#64 = true := by decide
theorem test_add_er_sxth_A19 : alu 0x8B23A041#32 0#64 0x8000#64 0xFFFFFFFFFFFF8000#64 = true := by decide
theorem test_adds_er_sxtb_A22 : aluFlags 0xAB238841#32 0x200#64 0x80#64 0#64 true false = true := by decide
theorem test_sub_er_uxtw_A24 : alu 0xCB234041#32 0#64 0xFFFFFFFF00000001#64 0xFFFFFFFFFFFFFFFF#64 = true := by decide
theorem test_subs_er_sxtw_A25 : aluFlags 0xEB23C041#32 0#64 0x80000000#64 0x80000000#64 false false = true := by decide
theorem test_cmp_er_A26 : aluFlags 0xEB23A45F#32 0xFFFFFFFFFFFFFFFE#64 0xFFFF#64 0#64 true false = true := by decide
theorem test_and_sr_ror_A27 : alu 0x8AC30441#32 0xFF#64 1#64 0#64 = true := by decide
theorem test_ands_sr_A28 : aluFlags 0xEA030041#32 0x8000000000000000#64 0x8000000000000000#64 0x8000000000000000#64 false true = true := by decide
theorem test_orr_sr_A29 : alu 0xAA030041#32 0xF0#64 0x0F#64 0xFF#64 = true := by decide
theorem test_eor_sr_A31 : alu 0xCA031041#32 0xFF#64 0xFF#64 0xF0F#64 = true := by decide
theorem test_lsl_i_A33 : alu 0xD37CEC41#32 0x1234#64 0#64 0x12340#64 = true := by decide
theorem test_lsr_i_A35 : alu 0xD344FC41#32 0x1234#64 0#64 0x123#64 = true := by decide
theorem test_lsr_i_zero_A36 : alu 0xD340FC41#32 0x1234#64 0#64 0x1234#64 = true := by decide
theorem test_movz_A38 : alu 0xD2F579A1#32 7#64 7#64 0xABCD000000000000#64 = true := by decide
theorem test_mul_A41 : alu 0x9B037C41#32 0xFFFFFFFFFFFFFFFF#64 3#64 0xFFFFFFFFFFFFFFFD#64 = true := by decide

/-- The result of an ALU instruction that sets no flags leaves the flag fields alone (vector A2). -/
theorem test_add_sets_no_flags :
    executed 0x91000441#32 0#64 0xFFFFFFFFFFFFFFFF#64 0#64 0#64 false false (fun op => op.result == 0#64 && !op.fz) = true := by
  decide

/-! ### Execute: the branch vectors (L2.3) -/

theorem test_b_B2 : branch 0x17FFFFFF#32 0x400010#64 0x0#64 0#64 false false 0x40000C#64 = true := by decide
theorem test_b_max_B5 : branch 0x15FFFFFF#32 0x0#64 0x0#64 0#64 false false 0x7FFFFFC#64 = true := by decide
theorem test_br_B6 : branch 0xD61F0140#32 0#64 0x400030#64 0#64 false false 0x400030#64 = true := by decide
theorem test_b_eq_taken_B9 : branch 0x54000040#32 0x400000#64 0x0#64 0#64 true false 0x400008#64 = true := by decide
theorem test_b_eq_not_taken_B10 : branch 0x54000040#32 0x400000#64 0x0#64 0#64 false false 0x400004#64 = true := by decide
theorem test_b_ne_B11 : branch 0x54FFFFC1#32 0x400010#64 0x0#64 0#64 false false 0x400008#64 = true := by decide
theorem test_b_ge_taken_B12 : branch 0x5400008A#32 0x400000#64 0x0#64 0#64 false false 0x400010#64 = true := by decide
theorem test_b_ge_not_taken_B13 : branch 0x5400008A#32 0x400000#64 0x0#64 0#64 false true 0x400004#64 = true := by decide
theorem test_b_lt_B14 : branch 0x5400008B#32 0x400000#64 0x0#64 0#64 false true 0x400010#64 = true := by decide
theorem test_b_gt_taken_B15 : branch 0x5400006C#32 0x400000#64 0x0#64 0#64 false false 0x40000C#64 = true := by decide
theorem test_b_gt_not_taken_B16 : branch 0x5400006C#32 0x400000#64 0x0#64 0#64 true false 0x400004#64 = true := by decide
theorem test_b_le_taken_B17 : branch 0x5400006D#32 0x400000#64 0x0#64 0#64 true false 0x40000C#64 = true := by decide
theorem test_b_le_not_taken_B18 : branch 0x5400006D#32 0x400000#64 0x0#64 0#64 false false 0x400004#64 = true := by decide
theorem test_cbz_taken_B20 : branch 0xB4000041#32 0x400000#64 0x0#64 0#64 false false 0x400008#64 = true := by decide
theorem test_cbz_not_taken_B21 : branch 0xB4000041#32 0x400000#64 0x0#64 5#64 false false 0x400004#64 = true := by decide
theorem test_cbnz_taken_B24 : branch 0xB5FFFFC1#32 0x400010#64 0x0#64 3#64 false false 0x400008#64 = true := by decide
theorem test_cbnz_not_taken_B25 : branch 0xB5FFFFC1#32 0x400010#64 0x0#64 0#64 false false 0x400014#64 = true := by decide

/-- Vector B8: `BR` to an address that is not a multiple of 4. -/
theorem test_br_misaligned_B8 : answers (runTag (tagOfWord 0xD61F0020#32) (inExecute 0xD61F0020#32 0#64 0x400002#64 0#64 0#64 false false))
    (fun t => t.fault == some .misalignedTarget) = true := by decide

/-! ### Memory: the load and store vectors (L2.2) -/

theorem test_ldur_x_M1 : loads 0xF8400041#32 0x1000#64 0x8877665544332211#64 = true := by decide
theorem test_ldur_w_M2 : loads 0xB8401041#32 0x1001#64 0x55443322#64 = true := by decide
theorem test_ldurh_M3 : loads 0x785FF041#32 0xFFF#64 0x1100#64 = true := by decide
theorem test_ldurb_M4 : loads 0x38407041#32 0x1007#64 0x88#64 = true := by decide
theorem test_stur_x_M7 : stores 0xF8002043#32 0x1002#64 0x0102030405060708#64 0x07082211#32 0x03040506#32 0x00000102#32 = true := by decide
theorem test_stur_w_M8 : stores 0xB8004043#32 0x1004#64 0xAABBCCDDEEFF0011#64 0x44332211#32 0xEEFF0011#32 0#32 = true := by decide
theorem test_sturh_M9 : stores 0x78003043#32 0x1003#64 0xBEEF#64 0xEF332211#32 0x887766BE#32 0#32 = true := by decide
theorem test_sturb_M10 : stores 0x3800005F#32 0x1000#64 0#64 0x44332200#32 0x88776655#32 0#32 = true := by decide

/-- The address of a load is formed in execute, with a signed byte offset (vector M5, and M12 where it wraps). -/
theorem test_ldurb_address_M5 : executed 0x38500041#32 0#64 0x1100#64 0#64 0#64 false false (fun op => op.memAddr == 0x1000#64) = true := by
  decide
theorem test_ldurb_address_M12 :
    executed 0x38401041#32 0#64 0xFFFFFFFFFFFFFFFF#64 0#64 0#64 false false (fun op => op.memAddr == 0#64) = true := by decide

/-! ### Decode and write-back of `HLT`, and an `UNKNOWN` word -/

theorem test_hlt_sets_halt : answers (step (latched (some (fetched 0xD4400000#32 0x400000#64)) none none none))
    (fun t => t.halt && !t.runStop && t.prev.ifde.isNone) = true := by decide
theorem test_hlt_stops : answers (step (latched none none none (some (opAt (.instr (.hlt 0#16)) 0#64))))
    (fun t => t.runStop && t.retired == 1#64) = true := by decide
theorem test_unknown_retires : answers (step (latched none none none (some (opAt .unknown 0#64))))
    (fun t => !t.runStop && t.retired == 1#64) = true := by decide

/-! ### Predictor vectors (L2.5) -/

theorem test_pht_index_P1 : phtIndex Config.default 0x400010#64 0x5A = 0x5E := by decide
theorem test_btb_index_P4 : btbIndex Config.default 0x401010#64 = 4 := by decide

/-- A predictor with one entry for the branch at `0x400010` and a counter at its index. -/
def trained (cond : Bool) (k : Counter) : Predictor :=
  ⟨0, tablePut 0#2 [] 4 k, [(4, ⟨true, 0x400010#64, 0x400004#64, cond⟩)]⟩

theorem test_predict_P5 : predict Config.default ⟨0, [], []⟩ 0x400010#64 = ⟨0x400014#64, true, 4⟩ := by decide
theorem test_predict_P6 : predict Config.default (trained false 0#2) 0x400010#64 = ⟨0x400004#64, false, 4⟩ := by decide
theorem test_predict_P7 : predict Config.default (trained true 2#2) 0x400010#64 = ⟨0x400004#64, false, 4⟩ := by decide
theorem test_predict_P8 : predict Config.default (trained true 1#2) 0x400010#64 = ⟨0x400014#64, false, 4⟩ := by decide
theorem test_bump_P9 : bump 0#2 true = 1#2 ∧ bump 3#2 true = 3#2 ∧ bump 0#2 false = 0#2 ∧ bump 2#2 false = 1#2 := by decide
theorem test_history_P10 : shiftHistory Config.default 0xFF true = 0xFF ∧ shiftHistory Config.default 0x80 false = 0 ∧
    shiftHistory Config.default 1 true = 3 := by decide

/-! ### Cache vectors (L2.6) -/

theorem test_address_K1 : blockOf Config.default.ic 0x400024 = 0x400020 ∧ setIndexOf Config.default.ic 0x400024 = 1 ∧
    tagOf Config.default.ic 0x400024 = 0x800 := by decide

/-- The set of vector K4: three valid ways and an invalid one. -/
def setK4 : List Way := [⟨true, 10, 0⟩, ⟨true, 11, 1⟩, ⟨true, 12, 2⟩, ⟨false, 0, 0⟩]

/-- The same set after K4 and K5. -/
def setK5 : List Way := [⟨true, 10, 2⟩, ⟨true, 11, 3⟩, ⟨true, 12, 1⟩, ⟨true, 13, 0⟩]

theorem test_touch_K4 : touch Config.default.ic 12 setK4 2 = [⟨true, 10, 1⟩, ⟨true, 11, 2⟩, ⟨true, 12, 0⟩, ⟨false, 0, 0⟩] := by
  decide
theorem test_install_K5 : touch Config.default.ic 13 (touch Config.default.ic 12 setK4 2) (victim setK4) = setK5 := by decide
theorem test_victim_K5b : victim setK5 = 1 := by decide

/-- Vector K8: a miss with penalty 0 installs at once and hits. -/
theorem test_no_penalty_K8 : (cacheAccess .data ⟨32, 256, 8, 0⟩ ⟨[], none⟩ 0x1000#64).2 = true := by decide

/-! ### Witnesses: encoding and operations -/

theorem test_witness_DecodeInvertsEncode :
    (Instr.subsER 3#5 .sxtx 4#3 31#5 30#5).wellFormed = true ∧ (Instr.lslI 1#6 2#5 31#5).wellFormed = true := by decide
theorem test_witness_EncodeInvertsDecode :
    decode 0xEB23A45F#32 = .instr (.cmpER 3#5 .sxth 1#3 2#5) ∧ decode 0xD341FC41#32 = .instr (.lsrI 1#6 2#5 1#5) := by decide
/-- One word for each clause of R97: `imms = 63` with `immr = 0`, `immr = imms + 1`, `immr = 0` with `imms = 0`, neither. -/
theorem test_witness_BitfieldClassification :
    tagOfWord 0xD340FC41#32 = .instr (.lsrI 0#6 2#5 1#5) ∧ tagOfWord 0xD37CEC41#32 = .instr (.lslI 4#6 2#5 1#5) ∧
    tagOfWord 0xD3400041#32 = .unknown ∧ tagOfWord 0xD3441C41#32 = .unknown := by decide
/-- One word for each disjunct of R102. -/
theorem test_witness_ReservedWordsAreUnknown :
    [0x00000000#32, 0x8BC30441#32, 0x8B231441#32, 0xD3441C41#32, 0x54000042#32].all (fun w => decide (tagOfWord w = .unknown)) = true := by
  decide
theorem test_witness_PredictorIndices : (0xFF : Nat) < 2 ^ Config.default.ghrBits := by decide
theorem test_witness_InitialisationRefusesInvalidConfigurations :
    ((∃ k, Config.default.ic.block = 2 ^ k) ∧ (∃ k, Config.default.ic.sets = 2 ^ k) ∧ (∃ k, Config.default.dc.block = 2 ^ k) ∧
      (∃ k, Config.default.dc.sets = 2 ^ k) ∧ 4 ≤ Config.default.ic.block ∧ 4 ≤ Config.default.dc.block ∧
      1 ≤ Config.default.ic.ways ∧ 1 ≤ Config.default.dc.ways ∧ 1 ≤ Config.default.ghrBits ∧ 1 ≤ Config.default.btbBits ∧
      Config.default.resetPc.toNat % 4 = 0) ∧
    ¬ ({ Config.default with resetPc := 0x400002#64 } : Config).resetPc.toNat % 4 = 0 :=
  ⟨⟨⟨5, by decide⟩, ⟨6, by decide⟩, ⟨5, by decide⟩, ⟨8, by decide⟩, by decide⟩, by decide⟩

/-! ### Witnesses: the stages -/

/-- An ALU micro-op in EX→MEM that writes `X2`, and a load in MEM→WB that wrote `X3`. -/
def aheadOp : MicroOp := { opAt (.instr (.movz 0#2 5#16 2#5)) 0x400004#64 with result := 5#64 }
def loadedOp : MicroOp := { opAt (.instr (.ldurX 0#9 31#5 3#5)) 0x400000#64 with memVal := 7#64 }

/-- The same writer with a result that is a multiple of 4. -/
def eightAhead : MicroOp := { aheadOp with result := 8#64 }

/-- A load of `X2` in EX→MEM. -/
def loadAhead : MicroOp := opAt (.instr (.ldurW 0x100#9 9#5 2#5)) 0x400004#64

/-- An instruction in execute behind those two. -/
def executing (i : Instr) (a : MicroOp) : State :=
  { latched none (some (opAt (.instr i) 0x400008#64)) (some a) (some loadedOp) with stage := .ex }

/-- An instruction in write-back, and one in the memory stage. -/
def committing (i : Instr) : State := { latched none none none (some (opAt (.instr i) 0x400008#64)) with stage := .wb }
def passing (i : Instr) : State := { latched none none (some (opAt (.instr i) 0x400008#64)) none with stage := .mem }

/-- The hypotheses of `RunsAlu` on one instruction, with both operands forwarded. -/
theorem test_witness_AddSubImmediateRuns :
    (executing (.addsI 1#1 0xFFF#12 2#5 1#5) aheadOp).stage = .ex ∧
    (executing (.addsI 1#1 0xFFF#12 2#5 1#5) aheadOp).prev.deex.isSome = true ∧
    notLoadedBy (some aheadOp) (some 2#5) = true ∧ notLoadedBy (some aheadOp) none = true ∧
    (passing (.addsI 1#1 0xFFF#12 2#5 1#5)).stage = .mem ∧ (passing (.addsI 1#1 0xFFF#12 2#5 1#5)).prev.exmem.isSome = true ∧
    (committing (.addsI 1#1 0xFFF#12 2#5 31#5)).stage = .wb ∧ (committing (.addsI 1#1 0xFFF#12 2#5 31#5)).prev.memwb.isSome = true := by
  decide
theorem test_witness_AddSubShiftedRuns :
    (executing (.subsSR .asr 3#5 63#6 2#5 1#5) aheadOp).stage = .ex ∧
    (executing (.subsSR .asr 3#5 63#6 2#5 1#5) aheadOp).prev.deex.isSome = true ∧
    notLoadedBy (some aheadOp) (some 2#5) = true ∧ notLoadedBy (some aheadOp) (some 3#5) = true ∧
    (passing (.cmpSR .lsl 3#5 0#6 2#5)).prev.exmem.isSome = true ∧ (committing (.cmpSR .lsl 3#5 0#6 2#5)).prev.memwb.isSome = true := by
  decide
theorem test_witness_AddSubExtendedRuns :
    (executing (.addER 3#5 .sxtw 4#3 2#5 1#5) aheadOp).stage = .ex ∧
    (executing (.addER 3#5 .sxtw 4#3 2#5 1#5) aheadOp).prev.deex.isSome = true ∧
    notLoadedBy (some aheadOp) (some 2#5) = true ∧ notLoadedBy (some aheadOp) (some 3#5) = true ∧
    (passing (.cmpER 3#5 .sxth 1#3 2#5)).prev.exmem.isSome = true ∧ (committing (.cmpER 3#5 .sxth 1#3 2#5)).prev.memwb.isSome = true := by
  decide
theorem test_witness_LogicalRuns :
    (executing (.andsSR .ror 3#5 1#6 2#5 31#5) aheadOp).stage = .ex ∧
    (executing (.andsSR .ror 3#5 1#6 2#5 31#5) aheadOp).prev.deex.isSome = true ∧
    notLoadedBy (some aheadOp) (some 2#5) = true ∧ notLoadedBy (some aheadOp) (some 3#5) = true ∧
    (passing (.orrSR .lsl 3#5 0#6 31#5 1#5)).prev.exmem.isSome = true ∧ (committing (.eorSR .lsl 3#5 0#6 2#5 1#5)).prev.memwb.isSome = true := by
  decide
theorem test_witness_ShiftMoveMultiplyRuns :
    (executing (.mul 3#5 2#5 1#5) aheadOp).stage = .ex ∧ (executing (.mul 3#5 2#5 1#5) aheadOp).prev.deex.isSome = true ∧
    notLoadedBy (some aheadOp) (some 2#5) = true ∧ notLoadedBy (some aheadOp) (some 3#5) = true ∧
    (executing (.movz 3#2 0xABCD#16 1#5) loadAhead).prev.deex.isSome = true ∧ notLoadedBy (some loadAhead) none = true ∧
    (passing (.lslI 63#6 2#5 1#5)).prev.exmem.isSome = true ∧ (committing (.lsrI 0#6 2#5 1#5)).prev.memwb.isSome = true := by
  decide
/-- The three clauses of a load and of a store: an access that hits, at the first and the last byte of a block; one that
misses; and one that reaches the first word outside `MEM_ADMIT`. -/
theorem test_witness_LoadsRun :
    (executing (.ldurX 0x1FF#9 2#5 1#5) aheadOp).prev.deex.isSome = true ∧ notLoadedBy (some aheadOp) (some 2#5) = true ∧
    (inMemory 0xF8400041#32 0x101F#64 0#64).stage = .mem ∧ (inMemory 0xF8400041#32 0x101F#64 0#64).prev.exmem.isSome = true ∧
    accessAdmitted Config.default 0x101F#64 8 = true ∧ (cacheAccess .data Config.default.dc warmData 0x101F#64).2 = true ∧
    (cacheAccess .data Config.default.dc warmData 0x1020#64).2 = false := by decide
theorem test_witness_LoadsRun_not_admitted :
    ¬ accessible { Config.default with memAdmit := [⟨0, 0x103F⟩] } 0x1039#64 8 ∧
      accessible { Config.default with memAdmit := [⟨0, 0x103F⟩] } 0x1038#64 8 := by
  unfold accessible; decide
theorem test_witness_StoresRun :
    (executing (.sturX 0x1FF#9 2#5 3#5) aheadOp).prev.deex.isSome = true ∧ notLoadedBy (some aheadOp) (some 2#5) = true ∧
    notLoadedBy (some aheadOp) (some 3#5) = true ∧
    (inMemory 0x3800005F#32 0x1000#64 0#64).stage = .mem ∧ (inMemory 0x3800005F#32 0x1000#64 0#64).prev.exmem.isSome = true ∧
    accessAdmitted Config.default 0x1000#64 1 = true ∧ (cacheAccess .data Config.default.dc warmData 0x1000#64).2 = true ∧
    (cacheAccess .data Config.default.dc warmData 0xFDF#64).2 = false ∧ (committing (.sturb 0#9 2#5 31#5)).prev.memwb.isSome = true := by
  decide
theorem test_witness_StoresRun_not_admitted :
    ¬ accessible { Config.default with memAdmit := [⟨0, 0x103F⟩] } 0x1040#64 1 := by
  unfold accessible; decide
/-- `B` backwards, and `BR` to a forwarded multiple of 4. -/
theorem test_witness_UnconditionalBranchesRun :
    (executing (.b 0x3FFFFFF#26) aheadOp).stage = .ex ∧ (executing (.b 0x3FFFFFF#26) aheadOp).prev.deex.isSome = true ∧
    (BitVec.ofInt 64 ((0x400008#64).toNat + 4 * (0x3FFFFFF#26).toInt)).toNat % 4 = 0 ∧
    (executing (.br 2#5) eightAhead).prev.deex.isSome = true ∧ notLoadedBy (some eightAhead) (some 2#5) = true ∧
    (operandOf (executing (.br 2#5) eightAhead).prev 2#5 0#64).toNat % 4 = 0 := by
  decide
theorem test_witness_ConditionalBranchesRun :
    (executing (.cbz 0x40000#19 2#5) aheadOp).stage = .ex ∧ (executing (.cbz 0x40000#19 2#5) aheadOp).prev.deex.isSome = true ∧
    notLoadedBy (some aheadOp) (some 2#5) = true ∧ (0x400008#64 + 4#64).toNat % 4 = 0 ∧
    (BitVec.ofInt 64 ((0x400008#64).toNat + 4 * (0x40000#19).toInt)).toNat % 4 = 0 := by decide
theorem test_witness_HaltAndUnknownRun :
    (executing (.hlt 0#16) aheadOp).stage = .ex ∧ (executing (.hlt 0#16) aheadOp).prev.deex.isSome = true ∧
    (passing (.hlt 0#16)).stage = .mem ∧ (passing (.hlt 0#16)).prev.exmem.isSome = true ∧
    (committing (.hlt 0#16)).stage = .wb ∧ (committing (.hlt 0#16)).prev.memwb.isSome = true ∧
    ({ latched (some (fetched 0#32 0#64)) none none none with stage := .de } : State).prev.ifde.isSome = true := by decide
/-- Both clauses: no hazard, and a load in execute of the register the instruction only writes (D13). -/
theorem test_witness_DecodeStageOfEveryInstruction :
    ({ latched (some (fetched 0xD2800061#32 0#64)) (some loadAhead) none none with stage := .de } : State).prev.ifde.isSome = true ∧
    loadUse (declared (.movz 0#2 3#16 1#5)) (some loadAhead) = false ∧
    loadUse (declared (.movz 0#2 3#16 2#5)) (some loadAhead) = true := by decide
theorem test_witness_ExecuteStageFaults :
    (executing (.addI 0#1 1#12 2#5 1#5) loadAhead).stage = .ex ∧
    (executing (.addI 0#1 1#12 2#5 1#5) loadAhead).prev.deex.isSome = true ∧ notLoadedBy (some loadAhead) (some 2#5) = false ∧
    notLoadedBy (some aheadOp) (some 2#5) = true ∧ (operandOf (executing (.br 2#5) aheadOp).prev 2#5 0#64).toNat % 4 = 1 ∧
    branchKind (.bEQ 1#19) = some true ∧ answers (exec (.bEQ 1#19) (executing (.bEQ 1#19) loadAhead)) (fun t => t.fault.isNone) = true := by
  decide
theorem test_witness_InstructionFrame :
    (∃ t, exec (.addI 0#1 1#12 2#5 1#5) (committing (.addI 0#1 1#12 2#5 1#5)) = .next t ∧ t.fault.isNone = true) ∧
    ∃ t, exec (.sturb 0#9 2#5 31#5) (inMemory 0x3800005F#32 0x1000#64 0#64) = .next t ∧ (readByte t.mem 0x1001#64 == 0x22#8) = true :=
  ⟨next_of_answers (by decide), next_of_answers (by decide)⟩

/-! ### Witnesses: hazards, prediction, caches -/

theorem test_witness_ForwardingNetwork :
    (3#5 : Reg) ≠ 31#5 ∧ aheadOp.tag.declared.dst = some 2#5 ∧ aheadOp.tag.declared.writes = .result ∧
    loadAhead.tag.declared.dst = some 2#5 ∧ loadAhead.tag.declared.writes = .memVal ∧ writesReg (some aheadOp) 3#5 = false ∧
    loadedOp.tag.declared.dst = some 3#5 ∧ loadedOp.tag.declared.writes = .memVal ∧ writesReg (some loadedOp) 4#5 = false ∧
    notLoadedBy (some aheadOp) (some 2#5) = true ∧ notLoadedBy (some aheadOp) none = true := by decide

/-- Every latch occupied, warm caches, a trained predictor: `ADD X4, X3, X3` in decode, `ADD X3, X2, #5` in execute behind
`aheadOp` and `loadedOp`. -/
def busy : State :=
  { latched (some (fetched 0x8B030064#32 0x40000C#64)) (some (opAt (.instr (.addI 0#1 5#12 2#5 3#5)) 0x400008#64)) (some aheadOp)
      (some loadedOp) with
    pc := 0x400010#64, mem := vectorMemory, dc := warmData, ic := install Config.default.ic ⟨[], none⟩ 0x400020,
    bp := trained true 2#2 }

theorem test_witness_ForwardedOperandsAreCurrent :
    busy.operandsCoherent = true ∧ busy.noLoadAhead = true ∧ busy.prev.deex.any (fun op => op.tag.declared.rn == some 2#5) = true := by
  decide
theorem test_witness_BranchFlagsAreCurrent :
    ∃ m, writeBackStage (latched none (some (opAt (.instr (.bEQ 2#19)) 0#64)) none
      (some { opAt (.instr (.cmpI 0#1 0#12 2#5)) 0#64 with fz := true })) = .next m ∧ branchZ m = true :=
  next_of_answers (by decide)
theorem test_witness_PredictionRule :
    ((trained true 2#2).entry (btbIndex Config.default 0x400010#64)).valid = true ∧
    ((trained true 2#2).entry (btbIndex Config.default 0x400010#64)).tag = 0x400010#64 ∧
    ((trained true 2#2).entry 4).cond = true ∧ ((trained false 2#2).entry 4).cond = false ∧
    ((trained true 2#2).counter (phtIndex Config.default 0x400010#64 0)).toNat = 2 ∧
    ((trained true 1#2).counter (phtIndex Config.default 0x400010#64 0)).toNat = 1 ∧
    ((trained true 2#2).entry (btbIndex Config.default 0x401010#64)).tag ≠ 0x401010#64 := by decide
/-- The clauses of `CacheAccess` at the first and last byte of a block: a fill of this block, a fill of the next one, a
hit, a miss with and without a penalty. -/
theorem test_witness_CacheAccessRule :
    (0x1000 : Nat) = blockOf Config.default.dc (0x101F#64).toNat ∧ (0x1000 : Nat) ≠ blockOf Config.default.dc (0x1020#64).toNat ∧
    warmData.fill = none ∧
    (setWays Config.default.dc warmData (setIndexOf Config.default.dc (0x101F#64).toNat)).any
      (fun w => w.valid && w.tag == tagOf Config.default.dc (0x101F#64).toNat) = true ∧
    (setWays Config.default.dc warmData (setIndexOf Config.default.dc (0x1020#64).toNat)).any (fun w => w.valid) = false ∧
    Config.default.dc.penalty ≠ 0 ∧ (⟨32, 256, 8, 0⟩ : CacheGeometry).penalty = 0 := by decide
theorem test_witness_RecencyAndVictim :
    setLru Config.default.ic setK4 = true ∧ setK4[2]? = some ⟨true, 12, 2⟩ ∧ setK4.any (fun u => u.valid == false) = true ∧
    setLru Config.default.ic setK5 = true ∧ setK5.all (fun u => u.valid) = true ∧ 1 ≤ Config.default.ic.ways ∧
    setK4[3]? = some ⟨false, 0, 0⟩ ∧
    setWays Config.default.ic ⟨[(1, setK4)], none⟩ (setIndexOf Config.default.ic 0x400020) = setK4 ∧
    setLru ⟨32, 1, 1, 1⟩ [⟨true, 7, 0⟩] = true := by decide
theorem test_witness_MissCompletesAfterPenalty :
    Config.default.dc.valid = true ∧ warmData.lru Config.default.dc = true ∧ warmData.fill = none ∧ Config.default.dc.penalty ≠ 0 ∧
    (setWays Config.default.dc warmData (setIndexOf Config.default.dc (0x1020#64).toNat)).all
      (fun w => !(w.valid && w.tag == tagOf Config.default.dc (0x1020#64).toNat)) = true ∧
    (⟨4, 1, 1, 1⟩ : CacheGeometry).valid = true := by decide

/-! ### Witnesses: the cycle -/

theorem test_witness_StoppedMachineIsUnchanged :
    ({ State.reset with runStop := true } : State).runStop = true ∧
    ({ State.reset with fault := some .dataNotAdmitted } : State).fault ≠ none := by decide

/-- A fetch-fault micro-op in decode. -/
def fetchFaulted : State := latched (some (fetchFaultOp 0x500000#64)) none none none

theorem test_witness_FaultUndoesItsCycle :
    fetchFaulted.fault = none ∧ ∃ t, step fetchFaulted = .next t ∧ decide (t.fault = some .fetchNotAdmitted) = true :=
  ⟨by decide, next_of_answers (by decide)⟩

/-- A word at `PC` that the instruction cache holds, with its word in memory. -/
def fetching : State :=
  { State.reset with
    mem := loadWord [] 0x400000#64 0xD28000A0#32
    ic := install Config.default.ic ⟨[], none⟩ 0x400000 }

theorem test_witness_StepRunsTheDecodedInstruction :
    busy.running = true ∧ busy.prev.memwb.map (·.tag) = some (.instr (.ldurX 0#9 31#5 3#5)) ∧
    busy.prev.exmem.map (·.tag) = some (.instr (.movz 0#2 5#16 2#5)) ∧ busy.ctl.memStall = false ∧
    busy.prev.deex.map (·.tag) = some (.instr (.addI 0#1 5#12 2#5 3#5)) ∧ busy.ctl.clearDecode = false ∧
    busy.prev.ifde.map (fun op => (op.fetchFault, decode op.word)) = some (false, .instr (.addSR .lsl 3#5 0#6 3#5 4#5)) ∧
    (Instr.addSR .lsl 3#5 0#6 3#5 4#5).wellFormed = true ∧ busy.ctl.loadStall = false := by decide
theorem test_witness_StepRunsTheDecodedInstruction_fetch :
    fetching.halt = false ∧ admitted fetching.cfg fetching.pc = true ∧
    (cacheAccess .instruction fetching.cfg.ic fetching.ic fetching.pc).2 = true ∧ fetching.pc.toNat % 4 = 0 ∧
    decodeBytes [readByte fetching.mem 0x400000#64, readByte fetching.mem 0x400001#64, readByte fetching.mem 0x400002#64,
      readByte fetching.mem 0x400003#64] = .instr (.movz 0#2 5#16 0#5) := by decide
/-- An `UNKNOWN` micro-op in every stage, and an unrecognised word in decode. -/
def unknowns : State :=
  latched (some (fetched 0xD503201F#32 0x40000C#64)) (some (opAt .unknown 0x400008#64)) (some (opAt .unknown 0x400004#64))
    (some (opAt .unknown 0x400000#64))

theorem test_witness_StepRunsTheDecodedInstruction_unknown :
    (unknowns.prev.memwb.map (·.tag), unknowns.prev.exmem.map (·.tag), unknowns.prev.deex.map (·.tag)) =
      (some .unknown, some .unknown, some .unknown) ∧
    unknowns.ctl.memStall = false ∧ unknowns.ctl.clearDecode = false ∧ decode 0xD503201F#32 = .rejected .noRow ∧
    ∃ t, step unknowns = .next t ∧ (t.fault.isNone && t.retired == 1#64) = true :=
  ⟨by decide, by decide, by decide, by decide, next_of_answers (by decide)⟩
/-- The four clauses of a cycle with empty latches: halted, not admitted, an instruction-cache miss, a hit. -/
theorem test_witness_FetchCycle :
    ({ fetching with halt := true } : State).running = true ∧ fetching.running = true ∧ fetching.halt = false ∧
    fetching.prev = ⟨none, none, none, none⟩ ∧ admitted fetching.cfg fetching.pc = true ∧
    admitted { Config.default with memAdmit := [⟨0, 0x3FFFFF⟩] } 0x400000#64 = false ∧
    admitted { Config.default with memAdmit := [⟨0, 0x3FFFFF⟩] } 0x3FFFFF#64 = true ∧
    (cacheAccess .instruction Config.default.ic (tickFill Config.default.ic State.reset.ic) State.reset.pc).2 = false ∧
    (cacheAccess .instruction Config.default.ic (tickFill Config.default.ic fetching.ic) fetching.pc).2 = true := by decide

/-- `ADD X3, X1, X1` in decode behind `LDUR X1` in execute (vector H1). -/
def loadUsing : State :=
  latched (some (fetched 0x8B010023#32 0x400008#64)) (some (opAt (.instr (.ldurX 0#9 2#5 1#5)) 0x400004#64)) none none

theorem test_witness_LoadUseStallCycle :
    loadUsing.running = true ∧ loadUsing.noLoadAhead = true ∧ loadUsing.memoryOutcome = .done ∧
    loadUsing.prev.ifde.map (·.fetchFault) = some false ∧ loadUse (tagOfWord 0x8B010023#32).declared loadUsing.prev.deex = true := by
  decide

/-- A load that misses in EX→MEM, with a branch in execute and every other latch occupied. -/
def freezing : State :=
  latched (some (fetched 0x8B030064#32 0x40000C#64)) (some (opAt (.instr (.cbz 2#19 3#5)) 0x400008#64))
    (some { loadAhead with memAddr := 0x1FFF#64 }) (some loadedOp)

theorem test_witness_FreezeCycle :
    freezing.running = true ∧ freezing.noLoadAhead = true ∧ freezing.memoryOutcome = .waits := by decide

/-- `B #+8` in execute, predicted to the next word; and `B.EQ #+8` with `Z = 0`, predicted right. -/
def branching (i : Instr) : State := latched (some (fetched 0xD2800021#32 0x400004#64)) (some (opAt (.instr i) 0x400000#64)) none none

theorem test_witness_BranchResolutionCycle :
    (branching (.b 2#26)).running = true ∧ (branching (.b 2#26)).memoryOutcome = .done ∧
    (branching (.b 2#26)).branchInExecute.map (·.2) = some false ∧ (branching (.bEQ 2#19)).branchInExecute.map (·.2) = some true ∧
    (∃ t, step (branching (.b 2#26)) = .next t ∧ (t.fault.isNone && t.squashes == 1#64) = true) ∧
    ∃ t, step (branching (.bEQ 2#19)) = .next t ∧ (t.fault.isNone && t.squashes == 0#64) = true :=
  ⟨by decide, by decide, by decide, by decide, next_of_answers (by decide), next_of_answers (by decide)⟩
/-- The mis-prediction clause: `B #+8`, with a fetch-fault micro-op in IF→DE that the squash discards. -/
def squashing : State := latched (some (fetchFaultOp 0x400004#64)) (some (opAt (.instr (.b 2#26)) 0x400000#64)) none none

theorem test_witness_BranchResolutionCycle_squash :
    squashing.running = true ∧ squashing.memoryOutcome = .done ∧ squashing.noLoadAhead = true ∧
    squashing.squashesTo 0x400008#64 = true ∧ squashing.executePasses = false ∧
    ∃ t, step squashing = .next t ∧ (t.fault.isNone && t.pc == 0x400008#64) = true :=
  ⟨by decide, by decide, by decide, by decide, by decide, next_of_answers (by decide)⟩
theorem test_witness_OnlyBranchesTrainThePredictor :
    freezing.running = true ∧ freezing.memoryOutcome ≠ .done ∧ busy.running = true ∧ busy.branchInExecute = none ∧
    (∃ t, step freezing = .next t ∧ t.fault.isNone = true) ∧ ∃ t, step busy = .next t ∧ t.fault.isNone = true :=
  ⟨by decide, by decide, by decide, by decide, next_of_answers (by decide), next_of_answers (by decide)⟩
theorem test_witness_OnlyWriteBackCommits :
    busy.prev.memwb.isSome = true ∧ loadUsing.prev.memwb = none ∧ (∃ t, step busy = .next t ∧ (t.fault.isNone && t.reg 3#5 == 7#64) = true) ∧
    ∃ t, step loadUsing = .next t ∧ t.fault.isNone = true :=
  ⟨by decide, by decide, next_of_answers (by decide), next_of_answers (by decide)⟩

/-- A store in EX→MEM whose block the data cache holds, and one whose block it does not hold. -/
def storing (a : Word) : State := { inMemory 0x78003043#32 a 0xBEEF#64 with stage := .wb }

/-- The store's last byte changes and the byte after it does not; the store that misses writes nothing in this cycle. -/
theorem test_witness_OnlyStoresWriteMemory :
    (storing 0x1003#64).running = true ∧ memKind (.sturh 3#9 2#5 3#5) = .store 2 ∧
    (storing 0x1003#64).prev.exmem.map (·.tag) = some (.instr (.sturh 3#9 2#5 3#5)) ∧
    (storing 0x1003#64).memoryOutcome = .done ∧ (storing 0x1020#64).memoryOutcome ≠ .done ∧
    (∃ t, step (storing 0x1003#64) = .next t ∧
      (t.fault.isNone && readByte t.mem 0x1004#64 == 0xBE#8 && readByte t.mem 0x1005#64 == 0x66#8) = true) ∧
    ∃ t, step (storing 0x1020#64) = .next t ∧ (t.fault.isNone && t.mem == vectorMemory) = true :=
  ⟨by decide, by decide, by decide, by decide, by decide, next_of_answers (by decide), next_of_answers (by decide)⟩

/-- A fetch-fault micro-op in decode behind an instruction in execute. -/
def faultBehind (i : Instr) : State :=
  latched (some (fetchFaultOp 0x400004#64)) (some (opAt (.instr i) 0x400000#64)) none none

/-- A load that reaches past the last admitted word, `BR` to an odd address, and a fetch-fault micro-op. -/
def notAdmitted : State :=
  { latched none none (some { opAt (.instr (.ldurX 0#9 2#5 1#5)) 0#64 with memAddr := 0x1039#64 }) none with
    cfg := { Config.default with memAdmit := [⟨0, 0x103F⟩] } }

def oddBranch : State :=
  latched none (some { opAt (.instr (.br 1#5)) 0x400000#64 with rnVal := 0x400002#64 }) none none

theorem test_witness_FaultingCycles :
    notAdmitted.running = true ∧ notAdmitted.memoryOutcome = .faults ∧
    oddBranch.running = true ∧ oddBranch.memoryOutcome = .done ∧ oddBranch.noLoadAhead = true ∧
    oddBranch.prev.deex.map (·.tag) = some (.instr (.br 1#5)) ∧ (operandOf oddBranch.prev 1#5 0x400002#64).toNat % 4 ≠ 0 ∧
    fetchFaulted.running = true ∧ fetchFaulted.memoryOutcome = .done ∧ fetchFaulted.prev.deex = none ∧
    fetchFaulted.executePasses = true ∧ fetchFaulted.prev.ifde.map (·.fetchFault) = some true := by decide
/-- A load ahead, in a cycle that completes its access and in one that freezes; a fetch-fault micro-op behind `ADD` and
behind a branch predicted right; and a cycle that does not fault. -/
def needingLoad (a : Word) : State :=
  { latched none (some (opAt (.instr (.addI 0#1 1#12 2#5 1#5)) 0x400008#64)) (some { loadAhead with memAddr := a }) none with
    dc := warmData, mem := vectorMemory }

theorem test_witness_FaultingCycles_straight_line :
    (needingLoad 0x1000#64).running = true ∧ (needingLoad 0x1000#64).memoryOutcome = .done ∧
    (needingLoad 0x1020#64).memoryOutcome = .waits ∧ (needingLoad 0x1000#64).noLoadAhead = false ∧
    (faultBehind (.addI 0#1 1#12 2#5 1#5)).memoryOutcome = .done ∧ (faultBehind (.addI 0#1 1#12 2#5 1#5)).noLoadAhead = true ∧
    (faultBehind (.addI 0#1 1#12 2#5 1#5)).executePasses = true ∧ (faultBehind (.bEQ 2#19)).noLoadAhead = true ∧
    (faultBehind (.bEQ 2#19)).executePasses = true ∧ (faultBehind (.b 2#26)).executePasses = false ∧
    busy.memoryOutcome = .done ∧ busy.executePasses = true ∧ busy.prev.ifde.map (·.fetchFault) = some false := by decide
/-- The store of this cycle changes the word that is fetched in it. -/
theorem test_witness_FetchSeesTheStoreOfItsCycle :
    fetching.executePasses = true ∧ fetching.decodePasses = true ∧
    ∃ t, step { fetching with
        prev := ⟨none, none, some { opAt (.instr (.sturb 0#9 2#5 3#5)) 0#64 with memAddr := 0x400001#64, memVal := 1#64 }, none⟩
        dc := install Config.default.dc ⟨[], none⟩ 0x400000 } = .next t ∧
      (t.fault.isNone && t.prev.ifde.any fun f => !f.fetchFault && f.word == 0xD28001A0#32) = true :=
  ⟨by decide, by decide, next_of_answers (by decide)⟩

/-- A full pipeline whose next word the instruction cache holds, predicted taken. -/
def flowing : State :=
  { busy with mem := loadWord [] 0x400010#64 0xB5FFFFA1#32, ic := install Config.default.ic ⟨[], none⟩ 0x400000 }

theorem test_witness_FetchSeesTheStoreOfItsCycle_pipelined :
    flowing.running = true ∧ flowing.memoryOutcome = .done ∧ flowing.noLoadAhead = true ∧ flowing.executePasses = true ∧
    flowing.decodePasses = true ∧ flowing.halt = false ∧ flowing.haltInDecode = false ∧
    admitted flowing.cfg flowing.pc = true ∧
    (cacheAccess .instruction flowing.cfg.ic (tickFill flowing.cfg.ic flowing.ic) flowing.pc).2 = true ∧
    ∃ t, step flowing = .next t ∧
      (t.fault.isNone && t.pc == 0x400004#64 && t.prev.ifde.any fun f => !f.fetchFault && f.word == 0xB5FFFFA1#32) = true :=
  ⟨by decide, by decide, by decide, by decide, by decide, by decide, by decide, by decide, by decide,
    next_of_answers (by decide)⟩

/-! ### Witnesses: the invariants, each with a step from a state that meets it -/

theorem test_busy_steps : ∃ t, step busy = .next t ∧ t.fault.isNone = true := next_of_answers (by decide)
theorem test_witness_MemoryStaysCanonical :
    (storing 0x1003#64).mem.wf = true ∧ ∃ t, step (storing 0x1003#64) = .next t ∧ t.mem.wf = true :=
  ⟨by decide, next_of_answers (by decide)⟩
theorem test_witness_PcStaysAligned : busy.pcAligned = true := by decide
theorem test_witness_CachesStayWellFormed : busy.lru = true ∧ busy.tagsDistinct = true := by decide
theorem test_witness_OperandsStayCoherent : busy.operandsCoherent = true := by decide
theorem test_witness_NoLoadIsForwardedFrom : busy.noLoadAhead = true ∧ busy.running = true ∧ freezing.noLoadAhead = true := by decide
theorem test_witness_HaltDrains :
    busy.haltDrains = true ∧ ({ fetching with halt := true } : State).haltDrains = true ∧
    ∃ t, step { fetching with halt := true } = .next t ∧ t.halt = true :=
  ⟨by decide, by decide, next_of_answers (by decide)⟩
theorem test_witness_PredictorWidthsStay : busy.predictorWidths = true := by decide

/-! ### Witnesses: runs of one instruction -/

theorem test_witness_FirstFetchAfterReset :
    Config.default.valid = true ∧ admitted Config.default Config.default.resetPc = true := by decide

/-- One word just fetched, its successor's block still being filled, and a warm data cache. -/
def lone (w : InstWord) : State :=
  { latched (some (fetched w 0x40001C#64)) none none none with
    pc := 0x400020#64, ic := ⟨[], some ⟨0x400020, 50⟩⟩, mem := vectorMemory, dc := warmData, x := Vector.replicate 31 0x1000#64 }

theorem test_witness_LoneInstructionMatchesSequential :
    (lone 0x8B031041#32).alone (fetched 0x8B031041#32 0x40001C#64) 4 = true ∧
    decode 0x8B031041#32 = .instr (.addSR .lsl 3#5 4#6 2#5 1#5) ∧ branchKind (.addSR .lsl 3#5 4#6 2#5 1#5) = none ∧
    ∀ n, memKind (.addSR .lsl 3#5 4#6 2#5 1#5) ≠ .load n ∧ memKind (.addSR .lsl 3#5 4#6 2#5 1#5) ≠ .store n :=
  ⟨by decide, by decide, by decide, fun _ => ⟨nofun, nofun⟩⟩
theorem test_witness_LoneInstructionMatchesSequential_load :
    (lone 0x785FF041#32).alone (fetched 0x785FF041#32 0x40001C#64) 4 = true ∧
    decode 0x785FF041#32 = .instr (.ldurh 0x1FF#9 2#5 1#5) ∧ memKind (.ldurh 0x1FF#9 2#5 1#5) = .load 2 ∧
    accessAdmitted Config.default ((lone 0x785FF041#32).reg (field 0x785FF041#32 5 5) + loadStoreOffset (field 0x785FF041#32 12 9)) 2 = true ∧
    (lone 0x785FF041#32).dataHits ((lone 0x785FF041#32).reg (field 0x785FF041#32 5 5) + loadStoreOffset (field 0x785FF041#32 12 9)) = true := by
  decide
theorem test_witness_LoneInstructionMatchesSequential_store :
    (lone 0x78003043#32).alone (fetched 0x78003043#32 0x40001C#64) 4 = true ∧
    decode 0x78003043#32 = .instr (.sturh 3#9 2#5 3#5) ∧ memKind (.sturh 3#9 2#5 3#5) = .store 2 ∧
    accessAdmitted Config.default ((lone 0x78003043#32).reg (field 0x78003043#32 5 5) + loadStoreOffset (field 0x78003043#32 12 9)) 2 = true ∧
    (lone 0x78003043#32).dataHits ((lone 0x78003043#32).reg (field 0x78003043#32 5 5) + loadStoreOffset (field 0x78003043#32 12 9)) = true := by
  decide
theorem test_witness_LoneInstructionMatchesSequential_halt :
    (lone 0xD4400000#32).alone (fetched 0xD4400000#32 0x40001C#64) 4 = true ∧ decode 0xD4400000#32 = .instr (.hlt 0#16) ∧
    branchKind (.hlt 0#16) = none ∧ (∀ n, memKind (.hlt 0#16) ≠ .load n ∧ memKind (.hlt 0#16) ≠ .store n) ∧
    (seqExec (.hlt 0#16) 0x40001C#64 (lone 0xD4400000#32)).1.runStop = true :=
  ⟨by decide, by decide, by decide, fun _ => ⟨nofun, nofun⟩, by decide⟩
theorem test_witness_LoneBranchMatchesSequential :
    (lone 0xB4000041#32).alone (fetched 0xB4000041#32 0x40001C#64) 2 = true ∧
    (lone 0xB4000041#32).pc = (fetched 0xB4000041#32 0x40001C#64).predPc ∧ decode 0xB4000041#32 = .instr (.cbz 2#19 1#5) ∧
    branchKind (.cbz 2#19 1#5) = some true ∧ (seqExec (.cbz 2#19 1#5) 0x40001C#64 (lone 0xB4000041#32)).2 = 0x400020#64 ∧
    (seqExec (.b 2#26) 0x40001C#64 (lone 0x14000002#32)).2 = 0x400024#64 := by decide

/-! ### The placed word, and the reset memory -/

/-- `withFetchWord` places a word for the next step to run. -/
theorem test_placed_word : ∃ t, step (State.reset.withFetchWord 32 0xD28000A0) = .next t ∧
    (t.prev.deex.any fun op => decide (op.tag = .instr (.movz 0#2 5#16 0#5)) && op.pc == 0x400000#64) = true :=
  next_of_answers (by decide)
theorem test_reset_memory_canonical : State.reset.mem.wf = true := by decide

end Sys2Proof.Tests
end

section
/-! SUPPORT. PROOFS of the scope family (spec/00_scope.md R8): initialisation answers a state exactly for the valid
configurations. -/

namespace Sys2Proof

/-- The executable test of R8 is the arithmetic notion. -/
theorem isPowerOfTwo_iff (n : Nat) : isPowerOfTwo n = true ↔ ∃ k, n = 2 ^ k := by
  constructor
  · intro h
    simp only [isPowerOfTwo, Bool.and_eq_true, beq_iff_eq] at h
    exact ⟨n.log2, h.2.symm⟩
  · rintro ⟨k, rfl⟩
    simp [isPowerOfTwo, Nat.log2_two_pow]

/-- The cache bounds of R8. -/
theorem CacheGeometry.valid_iff (g : CacheGeometry) :
    g.valid = true ↔ (∃ k, g.block = 2 ^ k) ∧ (∃ k, g.sets = 2 ^ k) ∧ 4 ≤ g.block ∧ 1 ≤ g.ways := by
  simp only [CacheGeometry.valid, Bool.and_eq_true, isPowerOfTwo_iff, decide_eq_true_eq, and_assoc]

/-- The conjuncts of R8, caches first. -/
theorem Config.valid_iff (c : Config) :
    c.valid = true ↔
      c.ic.valid = true ∧ c.dc.valid = true ∧ 1 ≤ c.ghrBits ∧ 1 ≤ c.btbBits ∧ c.resetPc.toNat % 4 = 0 := by
  simp only [Config.valid, Bool.and_eq_true, decide_eq_true_eq, beq_iff_eq, and_assoc]

namespace Machine

/-- Initialisation of a valid configuration is its reset state (R371). -/
theorem initialise_of_valid {c : Config} (h : c.valid = true) (m : Memory) :
    initialise c m = some (State.initial c m) := if_pos h

/-- An invalid configuration makes no state (R8, R371). -/
theorem initialise_of_not_valid {c : Config} (h : ¬ c.valid = true) (m : Memory) : initialise c m = none := if_neg h

/-- Reset keeps the configuration and the memory of any state, and nothing else of it (R370). -/
theorem resetMachine_eq_initial (s : State) : resetMachine s = State.initial s.cfg s.mem := rfl

end Machine
end Sys2Proof

/-- Settles O11: the conjunction of R8 is `Config.valid`, the test that initialisation makes. -/
theorem initialisationRefusesInvalidConfigurations : Obligations.InitialisationRefusesInvalidConfigurations := by
  intro c m
  have hvalid := c.valid_iff
  rw [c.ic.valid_iff, c.dc.valid_iff] at hvalid
  refine ⟨fun h => ?_, fun h => ?_⟩
  · have hc : c.valid = true := hvalid.mpr (by tauto)
    rw [Sys2Proof.Machine.initialise_of_valid hc, Sys2Proof.Machine.resetMachine_eq_initial]
  · exact Sys2Proof.Machine.initialise_of_not_valid (fun hc => h (by have := hvalid.mp hc; tauto)) m
end

section
/-! SUPPORT. PROOFS of the alignment invariant behind spec/10_state.md R24: every address a cycle can make the next PC, put
in flight or train into the BTB is a multiple of 4. -/

namespace Sys2Proof.Machine

/-! ### Multiples of 4 -/

theorem aligned4_iff (a : Word) : aligned4 a = true ↔ a.toNat % 4 = 0 := by simp [aligned4]

/-- Alignment is two zero bits, which is how an offset `imm:00` has it. -/
theorem aligned4_iff_setWidth (a : Word) : aligned4 a = true ↔ a.setWidth 2 = 0#2 := by
  rw [aligned4_iff, ← BitVec.toNat_inj, BitVec.toNat_setWidth]
  rfl

theorem aligned4_add {a b : Word} (ha : aligned4 a = true) (hb : aligned4 b = true) : aligned4 (a + b) = true := by
  rw [aligned4_iff] at *
  rw [BitVec.toNat_add]
  omega

/-- The sequential successor of an aligned address (R213, R222). -/
theorem aligned4_add_four {a : Word} (ha : aligned4 a = true) : aligned4 (a + 4#64) = true :=
  aligned4_add ha (by decide)

/-- An offset with two zero bits appended is a multiple of 4 (R94, R95). -/
theorem aligned4_signExtend_append {n : Nat} (imm : BitVec n) :
    aligned4 ((imm ++ 0b00#2).signExtend 64) = true := by
  rw [aligned4_iff_setWidth]
  ext i hi
  have hwidth : i < n + 2 := by omega
  simp [BitVec.getLsbD_signExtend, BitVec.getElem_append, hi, hwidth]

theorem aligned4_branchOffset (imm26 : BitVec 26) : aligned4 (branchOffset imm26) = true :=
  aligned4_signExtend_append imm26

theorem aligned4_condBranchOffset (imm19 : BitVec 19) : aligned4 (condBranchOffset imm19) = true :=
  aligned4_signExtend_append imm19


/-! ### The invariant -/

theorem pcAligned_iff (s : State) :
    s.pcAligned = true ↔ aligned4 s.pc = true ∧ latchAligned s.prev.ifde = true ∧ latchAligned s.prev.deex = true ∧
      (s.bp.btb.all fun e => aligned4 e.2.target) = true := by
  simp only [State.pcAligned, Bool.and_eq_true, and_assoc]

@[simp] theorem latchAligned_none : latchAligned none = true := rfl

@[simp] theorem latchAligned_some (op : MicroOp) : latchAligned (some op) = aligned4 op.pc := rfl

/-- The invariant speaks only of what no stage before fetch changes. -/
theorem Keeps.pcAligned_eq {s m : State} (k : Keeps s m) : m.pcAligned = s.pcAligned := by
  simp only [State.pcAligned, k.pc, k.prev, k.bp]

/-- What execute may have reported of a branch: an aligned resolved PC, and an aligned target to train. -/
structure Control.ReportAligned (c : Control) : Prop where
  resolved : ∀ a, c.resolved = some a → aligned4 a = true
  trained : ∀ u, c.upd = some u → aligned4 u.btbEntry.target = true

theorem Control.reportAligned_cleared : Control.cleared.ReportAligned :=
  ⟨fun _ h => (by cases h), fun _ h => (by cases h)⟩

/-- The invariant inside a cycle, between two stages before fetch. -/
structure MidCycleAligned (s : State) : Prop where
  inputs : s.pcAligned = true
  report : s.ctl.ReportAligned

/-- A stage that keeps the machine's inputs keeps the mid-cycle invariant, if its report is aligned. -/
theorem MidCycleAligned.of_keeps {s m : State} (h : MidCycleAligned s) (k : Keeps s m) (hr : m.ctl.ReportAligned) :
    MidCycleAligned m :=
  ⟨k.pcAligned_eq.trans h.inputs, hr⟩

/-! ### The predictor -/

/-- The predicted next PC is a BTB target or the sequential successor (R213). -/
theorem predict_next_aligned {c : Config} {p : Predictor} {pc : Word} (hpc : aligned4 pc = true)
    (hbtb : (p.btb.all fun e => aligned4 e.2.target) = true) : aligned4 (predict c p pc).next = true := by
  unfold predict
  simp only
  split
  · rename_i hhit
    simp only [Bool.and_eq_true] at hhit
    split
    · exact List.all_eq_true.mp hbtb _ (Predictor.mem_of_entry_valid hhit.1)
    · exact aligned4_add_four hpc
  · exact aligned4_add_four hpc

/-- Training with an aligned target keeps every BTB target aligned (R219). -/
theorem btb_apply_aligned {p : Predictor} {u : PredUpdate} (hbtb : (p.btb.all fun e => aligned4 e.2.target) = true)
    (hu : aligned4 u.btbEntry.target = true) : ((p.apply u).btb.all fun e => aligned4 e.2.target) = true :=
  all_tablePut _ _ _ _ _ hbtb hu

/-! ### The stages before fetch -/

/-- Every branch of aligned address that resolves without a fault has an aligned target, taken or not: the target of an
always-taken branch is its resolved PC, any other is an offset from the branch's address (R320 to R331). -/
theorem exec_branch_target_aligned {i : Instr} {s : State} {op : MicroOp} {c : Bool} (hp : s.stage = .ex)
    (hl : s.prev.deex = some op) (hb : branchKind i = some c) :
    ∃ target taken, exec i s = exBranch (declared i) c target taken op s ∧
      ∀ o : MicroOp, aligned4 o.pc = true →
        aligned4 (resolvedPc { o with target := target o, taken := taken s o }) = true → aligned4 (target o) = true := by
  have hcond (imm19 : BitVec 19) (o : MicroOp) (ho : aligned4 o.pc = true) :
      aligned4 (o.pc + condBranchOffset imm19) = true := aligned4_add ho (aligned4_condBranchOffset imm19)
  cases i with
  | b imm26 => cases hb; exact ⟨_, _, inStage_ex hp hl, fun o ho _ => aligned4_add ho (aligned4_branchOffset imm26)⟩
  | br rn => cases hb; exact ⟨_, _, inStage_ex hp hl, fun _ _ hr => hr⟩
  | bEQ imm19 | bNE imm19 | bGE imm19 | bLT imm19 | bGT imm19 | bLE imm19 | cbz imm19 | cbnz imm19 =>
    cases hb; exact ⟨_, _, inStage_ex hp hl, fun o ho _ => hcond imm19 o ho⟩
  | _ => cases hb

/-- The report of a branch in execute is aligned (R65, R220, R222). -/
theorem executeStage_branch_report {s m : State} {op : MicroOp} {i : Instr} {c : Bool} (hl : s.prev.deex = some op)
    (hi : op.tag = .instr i) (hb : branchKind i = some c) (hpc : aligned4 op.pc = true)
    (h : executeStage s = .next m) (hf : m.fault = none) : m.ctl.ReportAligned := by
  obtain ⟨target, taken, he, htarget⟩ :=
    exec_branch_target_aligned (s := s.atStage .ex) (op := op) rfl (by simpa using hl) hb
  have hx : executeStage s = exec i (s.atStage .ex) := by simp only [executeStage, hl, hi, runTag]
  rw [hx, he] at h
  rcases exBranch_next h with ⟨f, rfl⟩ | ⟨o, o', hfwd, rfl, hres, rfl⟩
  · cases hf
  · obtain ⟨a, b, d, _, _, _, rfl⟩ := forward_ok hfwd
    exact ⟨fun _ e => (by cases e; exact hres), fun _ e => (by cases e; exact htarget _ hpc hres)⟩

theorem writeBackStage_keeps_aligned {s m : State} (hs : MidCycleAligned s) (h : writeBackStage s = .next m) :
    MidCycleAligned m := by
  obtain ⟨k, _, _, _, hctl, _⟩ := writeBackStage_frame h
  exact hs.of_keeps k (hctl ▸ hs.report)

theorem memoryStage_keeps_aligned {s m : State} (hs : MidCycleAligned s) (h : memoryStage s = .next m)
    (hf : m.fault = none) : MidCycleAligned m := by
  obtain ⟨k, _, _, _, hctl⟩ := memoryStage_frame h hf
  refine hs.of_keeps k ?_
  rcases hctl with e | e <;> rw [e]
  · exact hs.report
  · exact ⟨hs.report.resolved, hs.report.trained⟩

theorem executeStage_keeps_aligned {s m : State} (hs : MidCycleAligned s) (h : executeStage s = .next m)
    (hf : m.fault = none) : MidCycleAligned m := by
  refine hs.of_keeps (executeStage_frame h hf).1 ?_
  obtain ⟨_, _, hdeex, _⟩ := (pcAligned_iff s).mp hs.inputs
  rcases executeStage_next h hf with ⟨_, rfl⟩ | ⟨_, _, _, _, _, _, _, rfl⟩ | ⟨op, _, _, i, c, hl, hi, hb, _⟩
  · exact hs.report
  · exact hs.report
  · exact executeStage_branch_report hl hi hb (by simpa [hl] using hdeex) h hf

theorem decodeStage_keeps_aligned {s m : State} (hs : MidCycleAligned s) (h : decodeStage s = .next m)
    (hf : m.fault = none) : MidCycleAligned m := by
  obtain ⟨k, _, _, _, _, hctl, _⟩ := decodeStage_frame h hf
  refine hs.of_keeps k ?_
  rw [hctl]
  exact ⟨hs.report.resolved, hs.report.trained⟩

/-- What decode passes to DE→EX was fetched from where IF→DE was (R143). -/
theorem decodeStage_deex_aligned {s m : State} (hs : MidCycleAligned s) (h : decodeStage s = .next m)
    (hf : m.fault = none) (hstall : m.ctl.loadStall = false) : latchAligned m.cur.deex = true := by
  obtain ⟨_, hifde, _, _⟩ := (pcAligned_iff s).mp hs.inputs
  rcases decodeStage_next h hf with ⟨_, rfl⟩ | ⟨op, hl, _, ⟨_, rfl⟩ | ⟨_, rfl | rfl⟩⟩
  · rfl
  · cases hstall
  · simpa [hl, decodedOp] using hifde
  · simpa [hl, decodedOp] using hifde

/-! ### The ends of a cycle -/

/-- The end of a cycle meets the invariant where the chosen next PC, the written latches and the report are aligned
(R148, R149). -/
theorem endOfCycle_pcAligned {s : State} (hpc : aligned4 (s.ctl.nextPc.getD s.pc) = true)
    (hifde : latchAligned s.cur.ifde = true) (hdeex : latchAligned s.cur.deex = true)
    (hbtb : (s.bp.btb.all fun e => aligned4 e.2.target) = true) (hr : s.ctl.ReportAligned) :
    (endOfCycle s).pcAligned = true := by
  refine (pcAligned_iff _).mpr ⟨hpc, hifde, hdeex, ?_⟩
  cases hu : s.ctl.upd with
  | none => rw [endOfCycle_bp_none s hu]; exact hbtb
  | some u => rw [endOfCycle_bp_some s hu]; exact btb_apply_aligned hbtb (hr.trained u hu)

/-- A freeze refreshes operand values only (R191). -/
theorem heldDeex_aligned {s : State} {l : Latch} (hs : latchAligned s.prev.deex = true) (h : heldDeex s = .ok l) :
    latchAligned l = true := by
  unfold heldDeex at h
  split at h
  · rcases refresh_ok h with ⟨_, rfl⟩ | ⟨op, op', hl, rfl, hfwd⟩
    · rfl
    · obtain ⟨_, _, _, _, _, _, rfl⟩ := forward_ok hfwd
      simpa [hl] using hs
  · cases h; exact hs

/-- What fetch latches, and the next PC it chooses, are aligned (R146, R147). -/
theorem fetchStage_aligned {s : State} (hpc : aligned4 s.pc = true)
    (hbtb : (s.bp.btb.all fun e => aligned4 e.2.target) = true) :
    latchAligned (fetchStage s).cur.ifde = true ∧
      aligned4 ((fetchStage s).ctl.nextPc.getD (fetchStage s).pc) = true := by
  rcases fetchStage_cases s with ⟨_, e⟩ | ⟨_, _, e⟩ | ⟨_, _, _, e⟩ | ⟨_, _, _, e⟩ <;> rw [e]
  · exact ⟨rfl, hpc⟩
  · exact ⟨hpc, hpc⟩
  · exact ⟨rfl, hpc⟩
  · exact ⟨hpc, predict_next_aligned hpc hbtb⟩

theorem freeze_pcAligned {s : State} {l : Latch} (hs : MidCycleAligned s) (hl : heldDeex s = .ok l) :
    (endOfCycle ((((s.putExmem s.prev.exmem).putDeex l).putIfde s.prev.ifde).setNextPc s.pc)).pcAligned = true := by
  obtain ⟨hpc, hifde, hdeex, hbtb⟩ := (pcAligned_iff s).mp hs.inputs
  exact endOfCycle_pcAligned hpc hifde (heldDeex_aligned hdeex hl) hbtb ⟨hs.report.resolved, hs.report.trained⟩

theorem squash_pcAligned {s : State} (hs : MidCycleAligned s) : (endOfCycle (squashMux s)).pcAligned = true := by
  obtain ⟨hpc, _, _, hbtb⟩ := (pcAligned_iff s).mp hs.inputs
  obtain ⟨_, _, hbp, _, _, _, _, _, _, _, hcur, hctl⟩ := squashMux_frame s
  have hnext : aligned4 (s.ctl.resolved.getD s.pc) = true := by
    cases hr : s.ctl.resolved with
    | none => exact hpc
    | some a => exact hs.report.resolved a hr
  refine endOfCycle_pcAligned ?_ (by simp [hcur]) (by simp [hcur]) (by rw [hbp]; exact hbtb) ?_
  · rw [hctl]; exact hnext
  · rw [hctl]; exact ⟨hs.report.resolved, hs.report.trained⟩

theorem stall_pcAligned {s : State} (hs : MidCycleAligned s) : (endOfCycle (stallMux s)).pcAligned = true := by
  obtain ⟨hpc, hifde, _, hbtb⟩ := (pcAligned_iff s).mp hs.inputs
  exact endOfCycle_pcAligned hpc hifde rfl hbtb ⟨hs.report.resolved, hs.report.trained⟩

theorem fetch_pcAligned {s : State} (hs : MidCycleAligned s) (hdeex : latchAligned s.cur.deex = true) :
    (endOfCycle (fetchStage s)).pcAligned = true := by
  obtain ⟨hpc, _, _, hbtb⟩ := (pcAligned_iff s).mp hs.inputs
  obtain ⟨_, _, _, _, hbp, _, _, _, _, _, _, hcur, hctl⟩ := fetchStage_frame s
  obtain ⟨hifde, hnext⟩ := fetchStage_aligned hpc hbtb
  refine endOfCycle_pcAligned hnext hifde (by rw [hcur]; exact hdeex) (by rw [hbp]; exact hbtb) ?_
  rw [hctl]
  exact ⟨hs.report.resolved, hs.report.trained⟩

theorem atCycleStart_aligned {s : State} (h : s.pcAligned = true) : MidCycleAligned s.atCycleStart :=
  ⟨h, Control.reportAligned_cleared⟩

/-- A cycle that raises no fault keeps the invariant, whichever way it ends. -/
theorem CycleEnd.pcAligned {s t : State} (hs : s.pcAligned = true) (h : CycleEnd s t) : t.pcAligned = true := by
  have h0 := atCycleStart_aligned hs
  cases h with
  | freeze m1 m2 l hwb h1 hmem h2 _ hl ht =>
    have a2 := memoryStage_keeps_aligned (writeBackStage_keeps_aligned h0 hwb) hmem h2
    exact ht ▸ freeze_pcAligned a2 hl
  | squash m1 m2 m3 hwb h1 hmem h2 _ hex h3 _ ht =>
    have a2 := memoryStage_keeps_aligned (writeBackStage_keeps_aligned h0 hwb) hmem h2
    exact ht ▸ squash_pcAligned (executeStage_keeps_aligned a2 hex h3)
  | stall m1 m2 m3 m4 hwb h1 hmem h2 _ hex h3 _ hde h4 _ ht =>
    have a2 := memoryStage_keeps_aligned (writeBackStage_keeps_aligned h0 hwb) hmem h2
    have a3 := executeStage_keeps_aligned a2 hex h3
    exact ht ▸ stall_pcAligned (decodeStage_keeps_aligned a3 hde h4)
  | fetch m1 m2 m3 m4 hwb h1 hmem h2 _ hex h3 _ hde h4 hls ht =>
    have a2 := memoryStage_keeps_aligned (writeBackStage_keeps_aligned h0 hwb) hmem h2
    have a3 := executeStage_keeps_aligned a2 hex h3
    exact ht ▸ fetch_pcAligned (decodeStage_keeps_aligned a3 hde h4) (decodeStage_deex_aligned a3 hde h4 hls)

/-- Every step keeps the alignment invariant: a stopped machine and a fault keep the state's addresses (R132, R351). -/
theorem step_keeps_pcAligned {s t : State} (hs : s.pcAligned = true) (h : step s = .next t) : t.pcAligned = true := by
  cases hst : s.stopped with
  | true => rw [step_of_stopped hst] at h; cases h; exact hs
  | false =>
    rcases step_cases (by simp [State.running, hst]) h with ⟨f, rfl⟩ | ⟨_, hend⟩
    · exact hs
    · exact hend.pcAligned hs

end Sys2Proof.Machine

/-- Settles O50, from the invariant's step lemma; `PC` itself is its first conjunct. -/
theorem pcStaysAligned : Obligations.PcStaysAligned := by
  intro s t hs h
  have ht := Sys2Proof.Machine.step_keeps_pcAligned hs h
  obtain ⟨hpc, _⟩ := (Sys2Proof.Machine.pcAligned_iff t).mp ht
  exact ⟨ht, (Sys2Proof.Machine.aligned4_iff t.pc).mp hpc⟩
end

section
/-! SUPPORT. PROOFS of the state family (spec/10_state.md): a register write and what it leaves alone (R21, R22), and the
widths of the predictor's data (R31 to R33). -/

namespace Sys2Proof.Machine

/-! ### Registers -/

/-- A register write changes the register file only (R22). -/
theorem setReg_frame (s : State) (r : Reg) (v : Word) : s.setReg r v = { s with x := (s.setReg r v).x } := by
  unfold State.setReg
  split <;> rfl

/-! ### Indices and histories -/

/-- The XOR of two `H`-bit values has `H` bits (R211). -/
theorem phtIndex_lt {c : Config} {ghr : Nat} (pc : Word) (h : ghr < 2 ^ c.ghrBits) : phtIndex c pc ghr < 2 ^ c.ghrBits :=
  Nat.xor_lt_two_pow (Nat.mod_lt _ (Nat.two_pow_pos _)) h

theorem btbIndex_lt (c : Config) (pc : Word) : btbIndex c pc < 2 ^ c.btbBits := Nat.mod_lt _ (Nat.two_pow_pos _)

theorem shiftHistory_lt (c : Config) (ghr : Nat) (taken : Bool) : shiftHistory c ghr taken < 2 ^ c.ghrBits :=
  Nat.mod_lt _ (Nat.two_pow_pos _)

/-- A prediction records the PHT index of its address, whichever way it goes (R213, R214). -/
theorem predict_idx (c : Config) (p : Predictor) (pc : Word) : (predict c p pc).idx = phtIndex c pc p.ghr := by
  unfold predict
  simp only
  split
  · split <;> rfl
  · rfl

/-! ### The predictor's own widths -/

/-- The history and the keys of both tables keep to their widths (R31 to R33). -/
structure Predictor.Fits (c : Config) (p : Predictor) : Prop where
  ghr : p.ghr < 2 ^ c.ghrBits
  pht : (p.pht.all fun e => decide (e.1 < 2 ^ c.ghrBits)) = true
  btb : (p.btb.all fun e => decide (e.1 < 2 ^ c.btbBits)) = true

/-- Training by a branch whose recorded PHT index fits keeps the widths (R217 to R220). -/
theorem Predictor.Fits.train {c : Config} {p : Predictor} (h : p.Fits c) (cond : Bool) {op : MicroOp}
    (hop : op.phtIdx < 2 ^ c.ghrBits) : (p.apply (predUpdate c p cond op)).Fits c := by
  have hbtb := all_tablePut BtbEntry.invalid _ p.btb (btbIndex c op.pc) ⟨true, op.pc, op.target, cond⟩ h.btb
    (decide_eq_true (btbIndex_lt c op.pc))
  cases cond with
  | false => exact ⟨h.ghr, h.pht, hbtb⟩
  | true =>
    exact ⟨shiftHistory_lt c p.ghr op.taken, all_tablePut _ _ _ _ _ h.pht (decide_eq_true hop), hbtb⟩

/-! ### The invariant -/

/-- The PHT index a latch carries. -/
def latchIdx (l : Latch) : Option Nat := l.map MicroOp.phtIdx

theorem latchPhtIdx_iff (c : Config) (l : Latch) :
    latchPhtIdx c l = true ↔ ∀ i, latchIdx l = some i → i < 2 ^ c.ghrBits := by
  cases l <;> simp [latchPhtIdx, latchIdx]

theorem predictorWidths_iff (s : State) :
    s.predictorWidths = true ↔
      s.bp.Fits s.cfg ∧ latchPhtIdx s.cfg s.prev.ifde = true ∧ latchPhtIdx s.cfg s.prev.deex = true := by
  simp only [State.predictorWidths, Bool.and_eq_true, decide_eq_true_eq]
  exact ⟨fun ⟨⟨⟨⟨hghr, hpht⟩, hbtb⟩, hifde⟩, hdeex⟩ => ⟨⟨hghr, hpht, hbtb⟩, hifde, hdeex⟩,
    fun ⟨⟨hghr, hpht, hbtb⟩, hifde, hdeex⟩ => ⟨⟨⟨⟨hghr, hpht⟩, hbtb⟩, hifde⟩, hdeex⟩⟩

/-! ### Where a cycle takes the predictor's data from -/

/-- `m` reports no branch, or the training of the branch that `s` has in execute, with the PHT index recorded for it
(R217, R220). -/
def ReportsTraining (s m : State) : Prop :=
  m.ctl.upd = none ∨
    ∃ cond o, latchIdx s.prev.deex = some o.phtIdx ∧ m.ctl.upd = some (predUpdate s.cfg s.bp cond o)

/-- `p` is the predictor of `s`, or what the branch in execute makes of it by training (R220, R221). -/
def KeptOrTrained (s : State) (p : Predictor) : Prop :=
  p = s.bp ∨ ∃ cond o, latchIdx s.prev.deex = some o.phtIdx ∧ p = s.bp.apply (predUpdate s.cfg s.bp cond o)

/-- The sources of the predictor's data over a cycle from `s` to `t`: the predictor is kept or trained by the branch in
execute, and each latch of the front end is a bubble or carries an index that was already in flight, that the fetch of this
cycle made, or that of a fetch fault (R143, R147, R149). -/
structure PredictorFlow (s t : State) : Prop where
  cfg : t.cfg = s.cfg
  bp : KeptOrTrained s t.bp
  ifde : latchIdx t.prev.ifde = none ∨ latchIdx t.prev.ifde = latchIdx s.prev.ifde ∨ latchIdx t.prev.ifde = some 0 ∨
    latchIdx t.prev.ifde = some (phtIndex s.cfg s.pc s.bp.ghr)
  deex : latchIdx t.prev.deex = none ∨ latchIdx t.prev.deex = latchIdx s.prev.deex ∨
    latchIdx t.prev.deex = latchIdx s.prev.ifde

/-- Data from these sources keep their widths. -/
theorem PredictorFlow.predictorWidths {s t : State} (hs : s.predictorWidths = true) (h : PredictorFlow s t) :
    t.predictorWidths = true := by
  obtain ⟨hbp, hifde, hdeex⟩ := (predictorWidths_iff s).mp hs
  rw [latchPhtIdx_iff] at hifde hdeex
  rw [predictorWidths_iff, latchPhtIdx_iff, latchPhtIdx_iff, h.cfg]
  refine ⟨?_, fun i hi => ?_, fun i hi => ?_⟩
  · rcases h.bp with e | ⟨cond, o, ho, e⟩ <;> rw [e]
    · exact hbp
    · exact hbp.train cond (hdeex _ ho)
  · rcases h.ifde with e | e | e | e <;> rw [e] at hi
    · cases hi
    · exact hifde i hi
    · cases hi; exact Nat.two_pow_pos _
    · cases hi; exact phtIndex_lt _ hbp.ghr
  · rcases h.deex with e | e | e <;> rw [e] at hi
    · cases hi
    · exact hdeex i hi
    · exact hifde i hi

/-! ### The stages -/

/-- Write-back and memory keep the inputs of the cycle and report no branch (R134 to R138). -/
theorem memoryStage_keeps_start {s m1 m2 : State} (hwb : writeBackStage s.atCycleStart = .next m1)
    (hmem : memoryStage m1 = .next m2) (h2 : m2.fault = none) : Keeps s.atCycleStart m2 ∧ m2.ctl.upd = none := by
  obtain ⟨k1, _, _, _, hctl1, _⟩ := writeBackStage_frame hwb
  obtain ⟨k2, _, _, _, hctl2⟩ := memoryStage_frame hmem h2
  refine ⟨k1.trans k2, ?_⟩
  rcases hctl2 with e | e <;> rw [e, hctl1] <;> rfl

/-- Execute reports the branch in DE→EX, if there is one (R140, R220). -/
theorem executeStage_reports {s m : State} (hupd : s.ctl.upd = none) (h : executeStage s = .next m)
    (hf : m.fault = none) : ReportsTraining s m := by
  rcases executeStage_next h hf with ⟨_, rfl⟩ | ⟨_, _, _, _, _, _, _, rfl⟩ |
    ⟨op, _, o', _, c, hl, _, _, _, _, _, hidx, _, _, rfl⟩
  · exact .inl hupd
  · exact .inl hupd
  · exact .inr ⟨c, o', by simp [latchIdx, hl, hidx], rfl⟩

/-- From the inputs of the cycle, execute keeps what the front end reads and reports the branch it runs. -/
theorem executeStage_keeps_start {s m m' : State} (k : Keeps s.atCycleStart m) (hupd : m.ctl.upd = none)
    (h : executeStage m = .next m') (hf : m'.fault = none) : Keeps s.atCycleStart m' ∧ ReportsTraining s m' := by
  have hr := executeStage_reports hupd h hf
  rw [ReportsTraining, k.prev, k.cfg, k.bp] at hr
  exact ⟨k.trans (executeStage_frame h hf).1, hr⟩

/-- Decode keeps what the front end reads, and the report. -/
theorem decodeStage_keeps_report {s m m' : State} (k : Keeps s.atCycleStart m) (hr : ReportsTraining s m)
    (h : decodeStage m = .next m') (hf : m'.fault = none) : Keeps s.atCycleStart m' ∧ ReportsTraining s m' := by
  obtain ⟨k', _, _, _, _, hctl, _⟩ := decodeStage_frame h hf
  refine ⟨k.trans k', ?_⟩
  rw [ReportsTraining, hctl]
  exact hr

/-- Decode passes the recorded index on (R143). -/
theorem decodeStage_deex_idx {s m : State} (h : decodeStage s = .next m) (hf : m.fault = none)
    (hstall : m.ctl.loadStall = false) : latchIdx m.cur.deex = latchIdx s.prev.ifde := by
  rcases decodeStage_next h hf with ⟨hl, rfl⟩ | ⟨op, hl, _, ⟨_, rfl⟩ | ⟨_, rfl | rfl⟩⟩
  · simp [hl]
  · cases hstall
  · simp [hl, latchIdx, decodedOp]
  · simp [hl, latchIdx, decodedOp]

/-- A freeze keeps the index in DE→EX (R191). -/
theorem heldDeex_idx {s : State} {l : Latch} (h : heldDeex s = .ok l) : latchIdx l = latchIdx s.prev.deex := by
  unfold heldDeex at h
  split at h
  · rcases refresh_ok h with ⟨hl, rfl⟩ | ⟨op, op', hl, rfl, hfwd⟩
    · rw [hl]
    · obtain ⟨_, _, _, _, _, _, rfl⟩ := forward_ok hfwd
      simp [hl, latchIdx]
  · cases h; rfl

/-- What index fetch latches: none, that of a fetch fault, or that of its prediction (R146, R147, R214). -/
theorem fetchStage_ifde_idx (s : State) :
    latchIdx (fetchStage s).cur.ifde = none ∨ latchIdx (fetchStage s).cur.ifde = some 0 ∨
      latchIdx (fetchStage s).cur.ifde = some (phtIndex s.cfg s.pc s.bp.ghr) := by
  rcases fetchStage_cases s with ⟨_, e⟩ | ⟨_, _, e⟩ | ⟨_, _, _, e⟩ | ⟨_, _, _, e⟩ <;> rw [e]
  · exact .inl rfl
  · exact .inr (.inl rfl)
  · exact .inl rfl
  · exact .inr (.inr (congrArg some (predict_idx _ _ _)))

/-! ### The cycle -/

/-- The end of a cycle applies the report (R149). -/
theorem endOfCycle_bp_of_reports {s m : State} (hbp : m.bp = s.bp) (hr : ReportsTraining s m) :
    KeptOrTrained s (endOfCycle m).bp := by
  rcases hr with hu | ⟨cond, o, ho, hu⟩
  · exact .inl ((endOfCycle_bp_none m hu).trans hbp)
  · exact .inr ⟨cond, o, ho, by rw [endOfCycle_bp_some m hu, hbp]⟩

/-- A cycle that raises no fault takes the predictor's data from these sources, whichever way it ends. -/
theorem CycleEnd.predictorFlow {s t : State} (h : CycleEnd s t) : PredictorFlow s t := by
  cases h with
  | freeze m1 m2 l hwb _ hmem h2 _ hl ht =>
    subst ht
    obtain ⟨k, hupd⟩ := memoryStage_keeps_start hwb hmem h2
    exact ⟨k.cfg, endOfCycle_bp_of_reports (s := s) k.bp (.inl hupd), .inr (.inl (congrArg (latchIdx ·.ifde) k.prev)),
      .inr (.inl ((heldDeex_idx hl).trans (congrArg (latchIdx ·.deex) k.prev)))⟩
  | squash m1 m2 m3 hwb _ hmem h2 _ hex h3 _ ht =>
    subst ht
    obtain ⟨k2, hupd⟩ := memoryStage_keeps_start hwb hmem h2
    obtain ⟨k, hr⟩ := executeStage_keeps_start k2 hupd hex h3
    obtain ⟨_, hcfg, hbp, _, _, _, _, _, _, _, hcur, hctl⟩ := squashMux_frame m3
    refine ⟨hcfg.trans k.cfg, endOfCycle_bp_of_reports (s := s) (hbp.trans k.bp) ?_, .inl ?_, .inl ?_⟩
    · rw [ReportsTraining, hctl]; exact hr
    · simp [hcur, latchIdx]
    · simp [hcur, latchIdx]
  | stall m1 m2 m3 m4 hwb _ hmem h2 _ hex h3 _ hde h4 _ ht =>
    subst ht
    obtain ⟨k2, hupd⟩ := memoryStage_keeps_start hwb hmem h2
    obtain ⟨k3, hr3⟩ := executeStage_keeps_start k2 hupd hex h3
    obtain ⟨k, hr⟩ := decodeStage_keeps_report k3 hr3 hde h4
    exact ⟨k.cfg, endOfCycle_bp_of_reports (s := s) k.bp hr, .inr (.inl (congrArg (latchIdx ·.ifde) k.prev)), .inl rfl⟩
  | fetch m1 m2 m3 m4 hwb _ hmem h2 _ hex h3 _ hde h4 hls ht =>
    subst ht
    obtain ⟨k2, hupd⟩ := memoryStage_keeps_start hwb hmem h2
    obtain ⟨k3, hr3⟩ := executeStage_keeps_start k2 hupd hex h3
    obtain ⟨k, hr⟩ := decodeStage_keeps_report k3 hr3 hde h4
    obtain ⟨_, hcfg, _, _, hbp, _, _, _, _, _, _, hcur, hctl⟩ := fetchStage_frame m4
    refine ⟨hcfg.trans k.cfg, endOfCycle_bp_of_reports (s := s) (hbp.trans k.bp) ?_, ?_, .inr (.inr ?_)⟩
    · rw [ReportsTraining, hctl]; exact hr
    · have hi := fetchStage_ifde_idx m4
      rw [k.cfg, k.pc, k.bp] at hi
      exact hi.imp_right .inr
    · rw [endOfCycle_prev, hcur]
      exact (decodeStage_deex_idx hde h4 hls).trans (congrArg (latchIdx ·.ifde) k3.prev)

/-- Every step keeps the widths: a stopped machine and a fault keep the predictor and the latches (R132, R351). -/
theorem step_keeps_predictorWidths {s t : State} (hs : s.predictorWidths = true) (h : step s = .next t) :
    t.predictorWidths = true := by
  cases hst : s.stopped with
  | true => rw [step_of_stopped hst] at h; cases h; exact hs
  | false =>
    rcases step_cases (by simp [State.running, hst]) h with ⟨f, rfl⟩ | ⟨_, hend⟩
    · exact hs
    · exact hend.predictorFlow.predictorWidths hs

end Sys2Proof.Machine

/-- Settles O55: every datum of the next state's predictor and front end comes from a source that fits. -/
theorem predictorWidthsStay : Obligations.PredictorWidthsStay :=
  fun _ _ => Sys2Proof.Machine.step_keeps_predictorWidths

/-- Settles O8, from the laws of the register file and the frame of a write. -/
theorem registerWriteThenRead : Obligations.RegisterWriteThenRead :=
  fun s i j v => ⟨Sys2Proof.Machine.reg_zeroReg s, Sys2Proof.Machine.setReg_zeroReg s v,
    Sys2Proof.Machine.reg_setReg s i j v, Sys2Proof.Machine.setReg_frame s i v⟩
end

section
/-! SUPPORT. PROOFS of the memory family (spec/20_memory.md): accesses byte by byte (R61 to R64), the canonical form of the
memory (R60), and the memory a fetch reads (R74), with the stages of a cycle that neither freezes, faults, squashes nor
stalls. -/

namespace Sys2Proof.Machine

/-! ### Accesses byte by byte -/

/-- Byte `k` of a word, least significant first (R63). -/
def byteOf (v : Word) (k : Nat) : Byte := v.extractLsb' (8 * k) 8

/-- The bits of a byte of a word. -/
theorem byteOf_getElem (v : Word) (k : Nat) {i : Nat} (hi : i < 8) : (byteOf v k)[i] = v.getLsbD (8 * k + i) := by
  simp [byteOf]

/-- A word is its eight bytes. -/
theorem eq_of_byteOf_eq {v w : Word} (h : ∀ k < 8, byteOf v k = byteOf w k) : v = w := by
  refine BitVec.eq_of_getLsbD_eq fun i hi => ?_
  have hbit : (byteOf v (i / 8))[i % 8] = (byteOf w (i / 8))[i % 8] := by rw [h (i / 8) (by omega)]
  rwa [byteOf_getElem, byteOf_getElem, Nat.div_add_mod] at hbit

/-- The first byte of an access is the lowest of the value (R63). -/
theorem byteOf_zero_or_shiftLeft (b : Byte) (w : Word) : byteOf (b.setWidth 64 ||| w <<< 8) 0 = b := by
  ext i hi
  have hwide : i < 64 := by omega
  simp [byteOf_getElem, hi, hwide]

/-- The other bytes stand one place higher in the value (R63). -/
theorem byteOf_succ_or_shiftLeft (b : Byte) (w : Word) {k : Nat} (hk : k + 1 < 8) :
    byteOf (b.setWidth 64 ||| w <<< 8) (k + 1) = byteOf w k := by
  ext i hi
  have hb : b.getLsbD (8 * (k + 1) + i) = false := BitVec.getLsbD_of_ge _ _ (by omega)
  have hwide : 8 * (k + 1) + i < 64 := by omega
  have hplace : 8 * (k + 1) + i - 8 = 8 * k + i := by omega
  have habove : ¬ 8 * (k + 1) + i < 8 := by omega
  rw [byteOf_getElem, byteOf_getElem, BitVec.getLsbD_or, BitVec.getLsbD_setWidth, BitVec.getLsbD_shiftLeft, hplace]
  simp [hb, hwide, habove]

theorem byteOf_shiftRight (v : Word) (k : Nat) : byteOf (v >>> 8) k = byteOf v (k + 1) := by
  ext i hi
  rw [byteOf_getElem, byteOf_getElem, BitVec.getLsbD_ushiftRight]
  congr 1
  omega

theorem setWidth_eq_byteOf_zero (v : Word) : v.setWidth 8 = byteOf v 0 := by
  ext i hi
  simp [byteOf_getElem]

/-- The low `n` bytes of a word. -/
theorem byteOf_mod (v : Word) (n : Nat) {k : Nat} (hk : k < 8) :
    byteOf (BitVec.ofNat 64 (v.toNat % 2 ^ (8 * n))) k = if k < n then byteOf v k else 0#8 := by
  ext i hi
  rw [byteOf_getElem, BitVec.getLsbD_ofNat, Nat.testBit_mod_two_pow, BitVec.testBit_toNat]
  split
  · have hlow : 8 * k + i < 8 * n := by omega
    have hwide : 8 * k + i < 64 := by omega
    simp [byteOf_getElem, hlow, hwide]
  · have habove : ¬ 8 * k + i < 8 * n := by omega
    simp [habove]

/-- The upper half of a word, zero-extended. -/
theorem byteOf_upper_half (v : Word) (k : Nat) :
    byteOf ((v.extractLsb' 32 32).setWidth 64) k = if k < 4 then byteOf v (4 + k) else 0#8 := by
  ext i hi
  rw [byteOf_getElem]
  split
  · have hinside : 8 * k + i < 32 := by omega
    have hplace : 8 * (4 + k) + i = 32 + (8 * k + i) := by omega
    simp [byteOf_getElem, hinside, hplace]
    omega
  · have habove : 32 ≤ 8 * k + i := by omega
    simp [habove]

/-- The address of a later byte, counted from the byte after the first. -/
theorem addr_succ (a : Word) (k : Nat) : a + 1#64 + BitVec.ofNat 64 k = a + BitVec.ofNat 64 (k + 1) := by
  rw [BitVec.add_assoc, BitVec.add_comm 1#64, BitVec.ofNat_add]

/-- `MemRead` byte by byte (R63). -/
theorem byteOf_memRead (m : Memory) (a : Word) (n : Nat) {k : Nat} (hk : k < 8) :
    byteOf (memRead m a n) k = if k < n then readByte m (a + BitVec.ofNat 64 k) else 0#8 := by
  induction n generalizing a k with
  | zero => simp [memRead, byteOf]
  | succ n ih =>
    rw [memRead]
    cases k with
    | zero => simp [byteOf_zero_or_shiftLeft]
    | succ k => rw [byteOf_succ_or_shiftLeft _ _ hk, ih _ (by omega), addr_succ]; simp

/-- `MemWrite` byte by byte (R64): the distance from the address, modulo `2^64`, names the byte of the value. -/
theorem readByte_memWrite (m : Memory) (a v b : Word) {n : Nat} (hn : n < 2 ^ 64) :
    readByte (memWrite m a v n) b = if (b - a).toNat < n then byteOf v (b - a).toNat else readByte m b := by
  induction n generalizing m a v with
  | zero => rfl
  | succ n ih =>
    rw [memWrite, ih _ _ _ (by omega)]
    by_cases hba : b = a
    · subst hba
      have hlast : ¬ (b - (b + 1#64)).toNat < n := by bv_omega
      rw [if_neg hlast, readByte_writeByte_same, setWidth_eq_byteOf_zero]
      simp
    · have hstep : (b - a).toNat = (b - (a + 1#64)).toNat + 1 := by bv_omega
      rw [readByte_writeByte_other m hba, byteOf_shiftRight, hstep]
      simp

/-- Inside the access the byte `k` places up is byte `k` of the value. -/
theorem readByte_memWrite_inside (m : Memory) (a v : Word) {n k : Nat} (hk : k < n) (hn : n < 2 ^ 64) :
    readByte (memWrite m a v n) (a + BitVec.ofNat 64 k) = byteOf v k := by
  have hdist : (a + BitVec.ofNat 64 k - a).toNat = k := by bv_omega
  rw [readByte_memWrite m a v _ hn, hdist, if_pos hk]

/-- A read after a write of the same width gives the low bytes of the value. -/
theorem memRead_memWrite (m : Memory) (a v : Word) {n : Nat} (hn : n < 2 ^ 64) :
    memRead (memWrite m a v n) a n = BitVec.ofNat 64 (v.toNat % 2 ^ (8 * n)) := by
  refine eq_of_byteOf_eq fun k hk => ?_
  rw [byteOf_memRead _ _ _ hk, byteOf_mod v n hk]
  split
  · rename_i hkn; exact readByte_memWrite_inside m a v hkn hn
  · rfl

/-- A word read at `a + 4` after a doubleword is written at `a` is its upper half. -/
theorem memRead_upper_half (m : Memory) (a v : Word) :
    memRead (memWrite m a v 8) (a + 4#64) 4 = (v.extractLsb' 32 32).setWidth 64 := by
  refine eq_of_byteOf_eq fun k hk => ?_
  rw [byteOf_memRead _ _ _ hk, byteOf_upper_half]
  split
  · have haddr : a + 4#64 + BitVec.ofNat 64 k = a + BitVec.ofNat 64 (4 + k) := by bv_omega
    rw [haddr, readByte_memWrite_inside m a v (by omega) (by omega)]
  · rfl

/-- A word is the bits that a mask clears plus the bits that it keeps. -/
theorem and_not_add_and (a mask : Word) : (a &&& ~~~mask) + (a &&& mask) = a := by
  have hdisjoint : (a &&& ~~~mask) &&& (a &&& mask) = 0#64 := by
    ext i hi
    cases hm : mask[i] <;> simp [hm]
  rw [BitVec.add_eq_or_of_and_eq_zero _ _ hdisjoint]
  ext i hi
  cases hm : mask[i] <;> simp [hm]

/-- An address is its aligned word's, up by its two low bits (R62). -/
theorem wordAddr_add_lane (a : Word) : wordAddr a + BitVec.ofNat 64 (a.toNat % 4) = a := by
  have hlane : BitVec.ofNat 64 (a.toNat % 4) = a &&& 3#64 := by
    refine BitVec.eq_of_toNat_eq ?_
    have hmod : a.toNat &&& 3 = a.toNat % 4 := Nat.and_two_pow_sub_one_eq_mod a.toNat 2
    rw [BitVec.toNat_and, BitVec.toNat_ofNat, BitVec.toNat_ofNat, hmod]
    omega
  rw [hlane]
  exact and_not_add_and a 3#64

/-- Lane 0 of a word of bytes is in bits 7:0, and the others follow (R62). -/
theorem wordOfBytes_lanes (b0 b1 b2 b3 : Byte) :
    (wordOfBytes b0 b1 b2 b3).extractLsb' 0 8 = b0 ∧ (wordOfBytes b0 b1 b2 b3).extractLsb' 8 8 = b1 ∧
      (wordOfBytes b0 b1 b2 b3).extractLsb' 16 8 = b2 ∧ (wordOfBytes b0 b1 b2 b3).extractLsb' 24 8 = b3 := by
  have hup {n : Nat} (x : BitVec n) (b : Byte) (j : Nat) :
      (x ++ b).extractLsb' (j + 8) 8 = x.extractLsb' j 8 := BitVec.extractLsb'_append_eq_of_le (Nat.le_add_left 8 j)
  have h0 {n : Nat} (x : BitVec n) (b : Byte) : (x ++ b).extractLsb' 0 8 = b := BitVec.extractLsb'_append_eq_right
  have h1 : (b3 ++ b2 ++ b1 ++ b0).extractLsb' 8 8 = b1 := (hup _ b0 0).trans (h0 _ b1)
  have h2 : (b3 ++ b2 ++ b1 ++ b0).extractLsb' 16 8 = b2 := (hup _ b0 8).trans ((hup _ b1 0).trans (h0 b3 b2))
  have h3 : (b3 ++ b2 ++ b1 ++ b0).extractLsb' 24 8 = b3 :=
    (hup _ b0 16).trans ((hup _ b1 8).trans BitVec.extractLsb'_append_eq_left)
  exact ⟨h0 _ b0, h1, h2, h3⟩

/-- Lane `k` of the aligned word is its byte `k` places up (R62). -/
theorem read32_lane (m : Memory) (a : Word) {k : Nat} (hk : k < 4) :
    (read32 m a).extractLsb' (8 * k) 8 = readByte m (wordAddr a + BitVec.ofNat 64 k) := by
  obtain ⟨h0, h1, h2, h3⟩ := wordOfBytes_lanes (readByte m (wordAddr a)) (readByte m (wordAddr a + 1#64))
    (readByte m (wordAddr a + 2#64)) (readByte m (wordAddr a + 3#64))
  interval_cases k
  · simpa [read32] using h0
  · exact h1
  · exact h2
  · exact h3

/-! ### What a cycle does to the memory -/

/-- The memory stage performs at most one access, and only a store's writes (R135 to R138). -/
theorem memoryStage_mem {s m : State} (h : memoryStage s = .next m) (hf : m.fault = none) :
    m.mem = s.mem ∨ ∃ a v n, m.mem = memWrite s.mem a v n := by
  rcases memoryStage_next h hf with ⟨_, rfl⟩ | ⟨op, _, rfl | ⟨c, rfl⟩ | ⟨c, w, rfl⟩ | ⟨c, w, i, _, _, _, rfl⟩⟩
  · exact .inl rfl
  · exact .inl rfl
  · exact .inl rfl
  · exact .inl rfl
  · exact .inr ⟨op.memAddr, op.memVal, w, rfl⟩

theorem writeBackStage_mem {s m : State} (h : writeBackStage s = .next m) : m.mem = s.mem := by
  obtain ⟨_, hmem, _⟩ := writeBackStage_frame h
  exact hmem

theorem executeStage_mem {s m : State} (h : executeStage s = .next m) (hf : m.fault = none) : m.mem = s.mem := by
  obtain ⟨_, _, hmem, _⟩ := executeStage_frame h hf
  exact hmem

theorem decodeStage_mem {s m : State} (h : decodeStage s = .next m) (hf : m.fault = none) : m.mem = s.mem := by
  obtain ⟨_, _, hmem, _⟩ := decodeStage_frame h hf
  exact hmem

theorem fetchStage_mem (s : State) : (fetchStage s).mem = s.mem := by
  obtain ⟨_, _, _, _, _, hmem, _⟩ := fetchStage_frame s
  exact hmem

theorem fetchStage_fault (s : State) : (fetchStage s).fault = s.fault := by
  obtain ⟨_, _, _, _, _, _, _, _, _, _, hfault, _⟩ := fetchStage_frame s
  exact hfault

theorem fetchStage_cur (s : State) : (fetchStage s).cur = { s.cur with ifde := (fetchStage s).cur.ifde } := by
  obtain ⟨_, _, _, _, _, _, _, _, _, _, _, hcur, _⟩ := fetchStage_frame s
  exact hcur

theorem squashMux_mem (s : State) : (squashMux s).mem = s.mem := by
  obtain ⟨_, _, _, hmem, _⟩ := squashMux_frame s
  exact hmem

/-- A cycle that raises no fault ends with the memory that its memory stage leaves: write-back does not touch it, and no
later stage does. -/
theorem CycleEnd.mem_of_memoryStage {s t : State} (h : CycleEnd s t) :
    ∃ m1 m2, m1.mem = s.mem ∧ memoryStage m1 = .next m2 ∧ m2.fault = none ∧ t.mem = m2.mem := by
  have hm1 {m1 : State} (hwb : writeBackStage s.atCycleStart = .next m1) : m1.mem = s.mem :=
    writeBackStage_mem (s := s.atCycleStart) hwb
  cases h with
  | freeze m1 m2 l hwb _ hmem h2 _ _ ht => exact ⟨m1, m2, hm1 hwb, hmem, h2, ht ▸ rfl⟩
  | squash m1 m2 m3 hwb _ hmem h2 _ hex h3 _ ht =>
    exact ⟨m1, m2, hm1 hwb, hmem, h2, by rw [ht, endOfCycle_mem, squashMux_mem, executeStage_mem hex h3]⟩
  | stall m1 m2 m3 m4 hwb _ hmem h2 _ hex h3 _ hde h4 _ ht =>
    exact ⟨m1, m2, hm1 hwb, hmem, h2, ht ▸ (decodeStage_mem hde h4).trans (executeStage_mem hex h3)⟩
  | fetch m1 m2 m3 m4 hwb _ hmem h2 _ hex h3 _ hde h4 _ ht =>
    exact ⟨m1, m2, hm1 hwb, hmem, h2, by rw [ht, endOfCycle_mem, fetchStage_mem, decodeStage_mem hde h4,
      executeStage_mem hex h3]⟩

/-- The only change of a step to the memory is one `MemWrite`: a stopped machine and a fault keep it (R132, R351). -/
theorem step_mem {s t : State} (h : step s = .next t) : t.mem = s.mem ∨ ∃ a v n, t.mem = memWrite s.mem a v n := by
  cases hst : s.stopped with
  | true => rw [step_of_stopped hst] at h; cases h; exact .inl rfl
  | false =>
    rcases step_cases (by simp [State.running, hst]) h with ⟨f, rfl⟩ | ⟨_, hend⟩
    · exact .inl rfl
    · obtain ⟨m1, m2, hm1, hmem, h2, ht⟩ := hend.mem_of_memoryStage
      rw [ht, ← hm1]
      exact memoryStage_mem hmem h2

/-! ### The forwarding network, by its total operand -/

/-- With no micro-op in EX→MEM the operand comes from MEM→WB or from decode (R186). -/
theorem operandOf_of_exmem_none {L : Latches} {r : Reg} (hx : L.exmem = none) (hz : r ≠ zeroReg) (v : Word) :
    operandOf L r v = fwdFromMemwb L.memwb r v := by
  cases hm : L.memwb <;> simp [operandOf, fwdFromMemwb, hx, hm, hz]

/-- A micro-op in EX→MEM that writes the register has priority (R186). -/
theorem operandOf_of_exmem_some {L : Latches} {a : MicroOp} {r : Reg} (hx : L.exmem = some a) (hz : r ≠ zeroReg)
    (v : Word) : operandOf L r v = if writesReg (some a) r then a.result else fwdFromMemwb L.memwb r v := by
  cases hm : L.memwb <;> simp [operandOf, fwdFromMemwb, hx, hm, hz]

/-- Where a micro-op writes a register, the register is loaded by it exactly if it writes a loaded value (R189). -/
theorem notLoadedBy_of_writesReg {a : MicroOp} {r : Reg} (hz : r ≠ zeroReg) (hw : writesReg (some a) r = true) :
    notLoadedBy (some a) (some r) = decide (a.tag.declared.writes ≠ .memVal) := by
  simp only [writesReg, Bool.and_eq_true, beq_iff_eq] at hw
  simp [notLoadedBy, hz, hw.2]

theorem notLoadedBy_of_not_writesReg {a : MicroOp} {r : Reg} (hw : writesReg (some a) r = false) :
    notLoadedBy (some a) (some r) = true := by
  cases hk : a.tag.declared.writes <;> simp_all [notLoadedBy, writesReg]

/-- Forwarding of a register fails exactly where a load in EX→MEM writes it, and gives `operandOf` elsewhere
(R186, R189). -/
theorem fwdVal_eq (L : Latches) (r : Reg) (v : Word) :
    fwdVal L r v = if notLoadedBy L.exmem (some r) then .ok (operandOf L r v) else .error .forwardFromLoad := by
  unfold fwdVal
  split
  · rename_i hz
    subst hz
    cases L.exmem <;> simp [notLoadedBy, operandOf]
  · rename_i hz
    split
    · rename_i hx
      rw [operandOf_of_exmem_none hx hz, hx]
      rfl
    · rename_i a hx
      rw [operandOf_of_exmem_some hx hz, hx]
      cases hw : writesReg (some a) r with
      | false => simp [notLoadedBy_of_not_writesReg hw]
      | true =>
        rw [notLoadedBy_of_writesReg hz hw]
        cases hk : a.tag.declared.writes <;> simp

theorem fwdField_eq (L : Latches) (r : Option Reg) (v : Word) :
    fwdField L r v = if notLoadedBy L.exmem r then .ok (sourceOf L r v) else .error .forwardFromLoad := by
  cases r with
  | none => rfl
  | some r => exact fwdVal_eq L r v

/-- No declared source is the destination of the load in EX→MEM (R189). -/
def sourcesNotLoaded (d : Declared) (l : Latch) : Bool := notLoadedBy l d.rn && notLoadedBy l d.rm && notLoadedBy l d.rt

/-- Forwarding of a micro-op (R187) succeeds exactly where no declared source is being loaded. -/
theorem forward_eq (d : Declared) (L : Latches) (op : MicroOp) :
    forward d L op = if sourcesNotLoaded d L.exmem then .ok (withSources d L op) else .error .forwardFromLoad := by
  rw [forward, fwdField_eq, fwdField_eq, fwdField_eq, sourcesNotLoaded]
  cases notLoadedBy L.exmem d.rn <;> cases notLoadedBy L.exmem d.rm <;> cases notLoadedBy L.exmem d.rt <;> rfl

theorem noLoadAhead_eq_of_deex_some {s : State} {op : MicroOp} (hl : s.prev.deex = some op) :
    s.noLoadAhead = sourcesNotLoaded op.tag.declared s.prev.exmem := by
  simp [State.noLoadAhead, hl, sourcesNotLoaded]

/-! ### The cycle up to the memory stage -/

@[simp] theorem flagSource_none : flagSource none = none := rfl

theorem flagSource_some (op : MicroOp) : flagSource (some op) = if op.tag.declared.flags then some op else none := rfl

/-- The flags a branch reads in execute are those of every micro-op ahead of it (R190): write-back has committed MEM→WB. -/
theorem branchFlags_of_writeBack {s m : State} (h : writeBackStage s = .next m) :
    (branchZ m, branchN m) = s.committedFlags := by
  rcases writeBackStage_next h with ⟨hl, rfl⟩ | ⟨op, hl, rfl⟩
  · cases hx : flagSource s.prev.exmem <;> simp [branchZ, branchN, State.committedFlags, hl, hx]
  · rw [commit_eq]
    cases hx : flagSource s.prev.exmem <;> cases hf : op.tag.declared.flags <;>
      simp [branchZ, branchN, State.committedFlags, hl, hx, hf, flagSource_some]

/-- An access that is admitted and hits is performed (R136). -/
theorem memAccess_of_hit {w : Nat} (access : MicroOp → State → State) {op : MicroOp} {s : State}
    (ha : accessAdmitted s.cfg op.memAddr w = true) (hc : (cacheAccess .data s.cfg.dc s.dc op.memAddr).2 = true) :
    memAccess w access op s = .next (access op (s.setDc (cacheAccess .data s.cfg.dc s.dc op.memAddr).1)) := by
  simp [memAccess, ha, hc]

theorem accessOutcome_eq_done_iff (s : State) (a : Word) (n : Nat) :
    s.accessOutcome a n = .done ↔
      accessAdmitted s.cfg a n = true ∧ (cacheAccess .data s.cfg.dc (tickFill s.cfg.dc s.dc) a).2 = true := by
  unfold State.accessOutcome
  split
  · split <;> simp_all
  · simp_all

/-- The memory stage passes, without a fault or a stall, where the outcome of the next cycle is `done` (R135 to R138). -/
theorem memoryStage_of_done {s m : State} (hd : s.memoryOutcome = .done) (hprev : m.prev = s.prev) (hcfg : m.cfg = s.cfg)
    (hdc : m.dc = tickFill s.cfg.dc s.dc) :
    ∃ m', memoryStage m = .next m' ∧ m'.fault = m.fault ∧ m'.ctl = m.ctl := by
  unfold memoryStage
  unfold State.memoryOutcome at hd
  rw [hprev]
  rcases hl : s.prev.exmem with _ | op
  · exact ⟨_, rfl, rfl, rfl⟩
  have hl' : (m.atStage .mem).prev.exmem = some op := by simpa [hprev] using hl
  rcases ht : op.tag with i | _
  · have haccess (n : Nat) (access : MicroOp → State → State) (ho : s.accessOutcome op.memAddr n = .done) :
        memAccess n access op (m.atStage .mem) =
          .next (access op ((m.atStage .mem).setDc (cacheAccess .data s.cfg.dc (tickFill s.cfg.dc s.dc) op.memAddr).1)) := by
      obtain ⟨ha, hc⟩ := (accessOutcome_eq_done_iff s op.memAddr n).mp ho
      rw [memAccess_of_hit access (by simpa [hcfg] using ha) (by simpa [hcfg, hdc] using hc)]
      simp [hcfg, hdc]
    simp only [hl, ht] at hd
    simp only [ht, runTag, exec_memory (i := i) rfl hl']
    cases hk : memKind i with
    | none => exact ⟨_, rfl, rfl, rfl⟩
    | load n => exact ⟨_, haccess n _ (by simpa [hk] using hd), rfl, rfl⟩
    | store n => exact ⟨_, haccess n _ (by simpa [hk] using hd), rfl, rfl⟩
  · simp only [ht, runTag, execUnknown, inStage_mem (s := m.atStage .mem) rfl hl']
    exact ⟨_, rfl, rfl, rfl⟩

/-- `m`, inside a cycle from `s`, still has what the front end reads, and no fault, stall or squash has been raised. -/
structure Flows (s m : State) : Prop where
  keeps : Keeps s.atCycleStart m
  fault : m.fault = none
  noSquash : m.ctl.clearDecode = false
  noLoadStall : m.ctl.loadStall = false

theorem fault_of_running {s : State} (hr : s.running = true) : s.fault = none := by
  simp only [State.running, State.stopped, Bool.not_eq_true', Bool.or_eq_false_iff] at hr
  simpa using hr.2

/-- A cycle whose memory stage is done goes on with execute (R131, R139), on the flags that the micro-ops ahead leave. -/
theorem step_of_memoryDone {s : State} (hr : s.running = true) (hd : s.memoryOutcome = .done) :
    ∃ m, Flows s m ∧ m.halt = s.halt ∧ (branchZ m, branchN m) = s.committedFlags ∧
      step s = settle s (andThen (executeStage m) afterExecute) := by
  obtain ⟨m1, hwb⟩ := writeBackStage_total s.atCycleStart
  obtain ⟨k1, _, hdc1, _, hctl1, hhalt1, hfault1⟩ := writeBackStage_frame hwb
  obtain ⟨m2, hmem, hfault2, hctl2⟩ := memoryStage_of_done hd k1.prev k1.cfg hdc1
  have hf1 : m1.fault = none := hfault1.trans (fault_of_running hr)
  have hf2 : m2.fault = none := hfault2.trans hf1
  obtain ⟨k2, ka, hhalt2, _⟩ := memoryStage_frame hmem hf2
  have hctl : m2.ctl = Control.cleared := hctl2.trans hctl1
  refine ⟨m2, ⟨k1.trans k2, hf2, by rw [hctl]; rfl, by rw [hctl]; rfl⟩, hhalt2.trans hhalt1, ?_, ?_⟩
  · have hz : branchZ m2 = branchZ m1 := by simp only [branchZ, k2.prev, ka.z]
    have hn : branchN m2 = branchN m1 := by simp only [branchN, k2.prev, ka.n]
    rw [hz, hn]
    exact branchFlags_of_writeBack (s := s.atCycleStart) hwb
  · have hstall : m2.ctl.memStall = false := by rw [hctl]; rfl
    have hafter : afterMemory m2 = andThen (executeStage m2) afterExecute := by simp [afterMemory, hstall]
    have hstages : runStages s = afterMemory m2 := by
      show andThen (writeBackStage s.atCycleStart) afterWriteBack = _
      rw [hwb, andThen_ok hf1, afterWriteBack, hmem, andThen_ok hf2]
    rw [step_of_running (by simpa [State.running] using hr), hstages, hafter]

/-! ### Execute -/

theorem executeStage_of_tag {s : State} {op : MicroOp} (hl : s.prev.deex = some op) :
    executeStage s = runTag op.tag (s.atStage .ex) := by
  simp only [executeStage, hl]

/-- Execute of `UNKNOWN` reads no operand and passes (R342). -/
theorem executeStage_unknown {s : State} {op : MicroOp} (hl : s.prev.deex = some op) (ht : op.tag = .unknown) :
    executeStage s = .next ((s.atStage .ex).putExmem (some op)) := by
  rw [executeStage_of_tag hl, ht, runTag, execUnknown, inStage_ex (s := s.atStage .ex) rfl hl]
  rfl

/-- Execute of an instruction that is no branch: a load ahead of an operand faults, and else a result is latched. -/
theorem executeStage_nonbranch {s : State} {op : MicroOp} {i : Instr} (hl : s.prev.deex = some op)
    (ht : op.tag = .instr i) (hb : branchKind i = none) :
    ∃ o, executeStage s =
      if s.noLoadAhead then .next ((s.atStage .ex).putExmem (some o)) else raise .forwardFromLoad (s.atStage .ex) := by
  obtain ⟨f, he, _⟩ := exec_execute (i := i) (s := s.atStage .ex) (op := op) rfl (by simpa using hl) hb
  refine ⟨f (withSources (declared i) s.prev op), ?_⟩
  rw [executeStage_of_tag hl, ht, runTag, he, exStage, forward_eq, noLoadAhead_eq_of_deex_some hl, ht]
  cases h : sourcesNotLoaded (declared i) s.prev.exmem <;> simp [Tag.declared, h]

/-- The resolved PC of the branch `i` in the micro-op `op`, on the operands that the forwarding network gives it (R222). -/
def branchNext (s : State) (i : Instr) (op : MicroOp) : Word :=
  nextPcOf i op.pc (sourceOf s.prev (declared i).rn op.rnVal) (sourceOf s.prev (declared i).rt op.rtVal)
    (branchZ s) (branchN s)

/-- Execute of a branch: a load ahead of an operand faults, then a misaligned resolved PC, and else it is reported with
the squash signal of a mis-prediction (R140, R223). -/
theorem executeStage_branch {s : State} {op : MicroOp} {i : Instr} {c : Bool} (hl : s.prev.deex = some op)
    (ht : op.tag = .instr i) (hb : branchKind i = some c) :
    ∃ o, executeStage s =
      if s.noLoadAhead then
        if aligned4 (branchNext s i op) then
          .next (((s.atStage .ex).putExmem (some o)).putResolved (op.predPc != branchNext s i op) (branchNext s i op)
            (predUpdate s.cfg s.bp c o))
        else raise .misalignedTarget (s.atStage .ex)
      else raise .forwardFromLoad (s.atStage .ex) := by
  obtain ⟨target, taken, he, hnext⟩ :=
    exec_execute_branch_next (i := i) (s := s.atStage .ex) (op := op) rfl (by simpa using hl) hb
  have hres := hnext (withSources (declared i) s.prev op)
  refine ⟨{ withSources (declared i) s.prev op with
    target := target (withSources (declared i) s.prev op)
    taken := taken (s.atStage .ex) (withSources (declared i) s.prev op) }, ?_⟩
  rw [executeStage_of_tag hl, ht, runTag, he, exBranch, forward_eq, noLoadAhead_eq_of_deex_some hl, ht]
  cases h : sourcesNotLoaded (declared i) s.prev.exmem with
  | false => simp [Tag.declared, h]
  | true =>
    simp only [Tag.declared, h, State.atStage_prev, if_true]
    rw [hres]
    rfl

/-- A load ahead of a declared operand of the micro-op in execute ends the cycle with `ForwardFromLoad` (R189, R352). -/
theorem executeStage_of_loadAhead {s : State} (hn : s.noLoadAhead = false) :
    executeStage s = raise .forwardFromLoad (s.atStage .ex) := by
  rcases hl : s.prev.deex with _ | op
  · simp [State.noLoadAhead, hl] at hn
  rcases ht : op.tag with i | _
  · cases hb : branchKind i with
    | none =>
      obtain ⟨o, he⟩ := executeStage_nonbranch hl ht hb
      simpa [hn] using he
    | some c =>
      obtain ⟨o, he⟩ := executeStage_branch hl ht hb
      simpa [hn] using he
  · rw [noLoadAhead_eq_of_deex_some hl, ht] at hn
    cases hn

/-- The resolved PC that the statements speak of is the machine's, once write-back has committed MEM→WB (R190, R222). -/
theorem resolvedInExecute_eq {s m : State} {op : MicroOp} {i : Instr} {c : Bool} (hprev : m.prev = s.prev)
    (hflags : (branchZ m, branchN m) = s.committedFlags) (hl : s.prev.deex = some op) (ht : op.tag = .instr i)
    (hb : branchKind i = some c) : s.resolvedInExecute = some (branchNext m i op) := by
  simp [State.resolvedInExecute, hl, ht, hb, branchNext, hprev, ← hflags]

/-- A branch that execute passes was predicted right, to a multiple of 4. -/
theorem executePasses_branch {s : State} {op : MicroOp} {next : Word} (hl : s.prev.deex = some op)
    (hr : s.resolvedInExecute = some next) (hp : s.executePasses = true) : op.predPc = next ∧ aligned4 next = true := by
  simpa [State.executePasses, State.predictedInExecute, hl, hr] using hp

/-- Execute of a micro-op that resolves no branch, or one predicted right to a multiple of 4, reports no squash (R223). -/
theorem executeStage_of_passes {s m : State} (hprev : m.prev = s.prev)
    (hflags : (branchZ m, branchN m) = s.committedFlags) (hn : s.noLoadAhead = true) (hp : s.executePasses = true)
    (hc : m.ctl.clearDecode = false) :
    ∃ m', executeStage m = .next m' ∧ m'.fault = m.fault ∧ m'.ctl.clearDecode = false := by
  have hn' : m.noLoadAhead = true := by simpa [State.noLoadAhead, hprev] using hn
  rcases hl : s.prev.deex with _ | op
  · exact ⟨(m.atStage .ex).putExmem none, by simp [executeStage, hprev, hl], rfl, hc⟩
  have hlm : m.prev.deex = some op := by rw [hprev, hl]
  rcases ht : op.tag with i | _
  · cases hb : branchKind i with
    | none =>
      obtain ⟨o, he⟩ := executeStage_nonbranch hlm ht hb
      exact ⟨_, he.trans (if_pos hn'), rfl, hc⟩
    | some c =>
      obtain ⟨o, he⟩ := executeStage_branch hlm ht hb
      obtain ⟨hpred, haligned⟩ := executePasses_branch hl (resolvedInExecute_eq hprev hflags hl ht hb) hp
      refine ⟨_, he.trans ((if_pos hn').trans (if_pos haligned)), rfl, ?_⟩
      simp [State.putResolved, hpred]
  · exact ⟨_, executeStage_unknown hlm ht, rfl, hc⟩

/-- Execute keeps the tag of the micro-op it takes (R140). -/
theorem executeStage_exmem_tag {s m : State} (h : executeStage s = .next m) (hf : m.fault = none) :
    m.cur.exmem.map (·.tag) = s.prev.deex.map (·.tag) := by
  rcases executeStage_next h hf with ⟨hl, rfl⟩ | ⟨op, o, o', hl, _, htag, _, rfl⟩ |
    ⟨op, o, o', i, c, hl, _, _, _, htag, _, _, _, _, rfl⟩
  · simp [hl]
  · simp [hl, htag]
  · simp [hl, htag]

/-! ### Decode and fetch -/

theorem runTag_decode {t : Tag} {s : State} {op : MicroOp} (hp : s.stage = .de) (hl : s.prev.ifde = some op) :
    runTag t s = if t.halts then deHalt t op s else deStage t op s := by
  cases t with
  | instr i => exact exec_decode hp hl
  | unknown => exact inStage_de hp hl

theorem deStage_of_noLoadUse {t : Tag} {op : MicroOp} {s : State} (h : loadUse t.declared s.prev.deex = false) :
    deStage t op s = .next (s.putDeex (some (decodedOp t s op))) := by
  simp [deStage, h]

theorem deHalt_of_noLoadUse {t : Tag} {op : MicroOp} {s : State} (h : loadUse t.declared s.prev.deex = false) :
    deHalt t op s = .next (s.putDeex (some (decodedOp t s op))).setHalt := by
  simp [deHalt, h]

/-- Decode that neither stalls nor faults passes the micro-op, with `HALT` set behind an `HLT` (R143, R144). -/
theorem decodeStage_of_passes {s : State} (hp : s.decodePasses = true) :
    ∃ m, decodeStage s = .next m ∧ m.fault = s.fault ∧ m.ctl = s.ctl ∧ m.halt = (s.halt || s.haltInDecode) ∧
      m.cur.deex.map (·.word) = s.prev.ifde.map (·.word) := by
  unfold State.decodePasses at hp
  unfold decodeStage State.haltInDecode
  rcases hl : s.prev.ifde with _ | op
  · exact ⟨_, rfl, rfl, rfl, by simp, rfl⟩
  · simp only [hl, Bool.and_eq_true, Bool.not_eq_true'] at hp
    obtain ⟨hfetch, huse⟩ := hp
    simp only [hfetch, runTag_decode (s := s.atStage .de) rfl hl]
    cases hh : (tagOfWord op.word).halts with
    | false => exact ⟨_, deStage_of_noLoadUse huse, rfl, rfl, by simp, rfl⟩
    | true => exact ⟨_, deHalt_of_noLoadUse huse, rfl, rfl, by simp, rfl⟩

/-- A cycle that freezes, faults, squashes and stalls in none of its stages ends with a fetch (R131): what the fetch then
sees of the state that the cycle started from. -/
theorem step_of_straightLine {s : State} (hr : s.running = true) (hd : s.memoryOutcome = .done)
    (hn : s.noLoadAhead = true) (he : s.executePasses = true) (hp : s.decodePasses = true) :
    ∃ m, step s = .next (endOfCycle (fetchStage m)) ∧ Keeps s.atCycleStart m ∧ m.fault = none ∧
      m.halt = (s.halt || s.haltInDecode) ∧ m.cur.deex.map (·.word) = s.prev.ifde.map (·.word) ∧
      m.cur.exmem.map (·.tag) = s.prev.deex.map (·.tag) := by
  obtain ⟨m2, hm2, hhalt2, hflags, hstep⟩ := step_of_memoryDone hr hd
  have hprev2 : m2.prev = s.prev := hm2.keeps.prev
  obtain ⟨m3, hex, hfault3, hsquash⟩ := executeStage_of_passes hprev2 hflags hn he hm2.noSquash
  have hf3 : m3.fault = none := hfault3.trans hm2.fault
  obtain ⟨k3, _, _, _, hhalt3, _, _, hstall3⟩ := executeStage_frame hex hf3
  have hprev3 : m3.prev = s.prev := k3.prev.trans hprev2
  obtain ⟨m4, hde, hfault4, hctl4, hhalt4, hdeex⟩ :=
    decodeStage_of_passes (s := m3) (by simpa [State.decodePasses, hprev3] using hp)
  have hf4 : m4.fault = none := hfault4.trans hf3
  obtain ⟨k4, _, _, _, hcur4, _⟩ := decodeStage_frame hde hf4
  have hstall4 : m4.ctl.loadStall = false := by rw [hctl4, hstall3, hm2.noLoadStall]
  have hback : andThen (executeStage m2) afterExecute = .next (endOfCycle (fetchStage m4)) := by
    rw [hex, andThen_ok hf3]
    simp [afterExecute, hsquash, frontEnd, hde, andThen_ok hf4, afterDecode, hstall4]
  have hfetch : (fetchStage m4).fault = none := (fetchStage_fault m4).trans hf4
  refine ⟨m4, ?_, (hm2.keeps.trans k3).trans k4, hf4, ?_, by rw [hdeex, hprev3], ?_⟩
  · rw [hstep, hback]
    simp [settle, hfetch]
  · have hhlt : m3.haltInDecode = s.haltInDecode := by simp only [State.haltInDecode, hprev3]
    rw [hhalt4, hhalt3, hhalt2, hhlt]
  · rw [hcur4]
    exact (executeStage_exmem_tag hex hf3).trans (by rw [hprev2])

/-- A load ahead of an operand faults the cycle whose memory stage is done (R189, R352). -/
theorem step_of_loadAhead {s : State} (hr : s.running = true) (hd : s.memoryOutcome = .done)
    (hn : s.noLoadAhead = false) : step s = .next (takeFault s .forwardFromLoad) := by
  obtain ⟨m, hm, _, _, hstep⟩ := step_of_memoryDone hr hd
  have hprev : m.prev = s.prev := hm.keeps.prev
  have hn' : m.noLoadAhead = false := by simpa [State.noLoadAhead, hprev] using hn
  rw [hstep, executeStage_of_loadAhead hn']
  rfl

/-- A fetch that latches a micro-op without a fetch fault has hit: it latches the word of the memory as it stands, with the
prediction, and takes the predicted next PC (R147). -/
theorem fetchStage_of_fetched {s : State} {f : MicroOp} (h : (fetchStage s).cur.ifde = some f)
    (hf : f.fetchFault = false) :
    f = fetchedOp (read32 s.mem s.pc) s.pc (predict s.cfg s.bp s.pc) ∧
      (fetchStage s).ctl.nextPc = some (predict s.cfg s.bp s.pc).next := by
  rcases fetchStage_cases s with ⟨_, e⟩ | ⟨_, _, e⟩ | ⟨_, _, _, e⟩ | ⟨_, _, _, e⟩ <;> rw [e] at h ⊢
  · cases h
  · cases h; cases hf
  · cases h
  · cases h; exact ⟨rfl, rfl⟩

/-- A fetch that nothing has halted, of an admitted address that the instruction cache holds, latches its word (R147). -/
theorem fetchStage_of_hit {s : State} (hh : s.halt = false) (ha : admitted s.cfg s.pc = true)
    (hc : (cacheAccess .instruction s.cfg.ic s.ic s.pc).2 = true) :
    (fetchStage s).cur.ifde = some (fetchedOp (read32 s.mem s.pc) s.pc (predict s.cfg s.bp s.pc)) := by
  rcases fetchStage_cases s with ⟨h, _⟩ | ⟨_, h, _⟩ | ⟨_, _, h, _⟩ | ⟨_, _, _, e⟩
  · rw [hh] at h; cases h
  · rw [ha] at h; cases h
  · rw [hc] at h; cases h
  · rw [e]; rfl

/-- What a straight-line cycle fetches (R74, R148): the word of the memory at the end of the cycle, with the prediction of
the predictor as the cycle found it. -/
theorem fetched_of_straightLine {s t : State} {f : MicroOp} (hr : s.running = true) (hd : s.memoryOutcome = .done)
    (he : s.executePasses = true) (hp : s.decodePasses = true) (h : step s = .next t) (hf : t.fault = none)
    (hl : t.prev.ifde = some f) (hff : f.fetchFault = false) :
    f = fetchedOp (read32 t.mem s.pc) s.pc (predict s.cfg s.bp s.pc) ∧ t.pc = (predict s.cfg s.bp s.pc).next := by
  have hn : s.noLoadAhead = true := by
    cases hn : s.noLoadAhead with
    | true => rfl
    | false => rw [step_of_loadAhead hr hd hn] at h; cases h; cases hf
  obtain ⟨m, hstep, k, _⟩ := step_of_straightLine hr hd hn he hp
  rw [hstep] at h
  cases h
  obtain ⟨hword, hnext⟩ := fetchStage_of_fetched hl hff
  have hcfg : m.cfg = s.cfg := k.cfg
  have hpc : m.pc = s.pc := k.pc
  have hbp : m.bp = s.bp := k.bp
  rw [endOfCycle_mem, fetchStage_mem, endOfCycle_pc, hnext, hword, hcfg, hpc, hbp]
  exact ⟨rfl, rfl⟩

end Sys2Proof.Machine

/-- Settles O49: a step changes the memory by a `MemWrite` at most, which keeps the canonical form. -/
theorem memoryStaysCanonical : Obligations.MemoryStaysCanonical := by
  intro s t hwf h
  rcases Sys2Proof.Machine.step_mem h with e | ⟨a, v, n, e⟩ <;> rw [e]
  · exact hwf
  · exact Sys2Proof.Machine.memWrite_wf hwf a v n

/-- Settles O9: a value read and the memory after a write are given byte by byte, and a word by its bytes. -/
theorem memoryAccessesAreByteExact : Obligations.MemoryAccessesAreByteExact := by
  intro m a v
  refine ⟨fun n hn => ?_, ?_, Sys2Proof.Machine.memRead_upper_half m a v⟩
  · have hsmall : n < 2 ^ 64 := by fin_cases hn <;> decide
    exact ⟨fun k hk => Sys2Proof.Machine.byteOf_memRead m a n hk,
      fun b => Sys2Proof.Machine.readByte_memWrite m a v b hsmall, Sys2Proof.Machine.memRead_memWrite m a v hsmall⟩
  · rw [Sys2Proof.Machine.read32_lane m a (Nat.mod_lt _ (by decide)), Sys2Proof.Machine.wordAddr_add_lane]

/-- Settles O48: such a cycle is a straight line to its fetch, which reads the memory that the cycle ends with. -/
theorem fetchSeesTheStoreOfItsCycle : Obligations.FetchSeesTheStoreOfItsCycle := by
  refine ⟨fun s t f hr hd he hp h hf hl hff => ?_, fun s hr hd hn he hp hh hhlt ha hc => ?_⟩
  · obtain ⟨rfl, hpc⟩ := Sys2Proof.Machine.fetched_of_straightLine hr hd he hp h hf hl hff
    exact ⟨rfl, rfl, hpc, hpc.symm, rfl, rfl⟩
  · obtain ⟨m, hstep, k, hf, hhalt, hdeex, hexmem⟩ := Sys2Proof.Machine.step_of_straightLine hr hd hn he hp
    have hfetch := Sys2Proof.Machine.fetchStage_of_hit (s := m) (by rw [hhalt, hh, hhlt]; rfl)
      (by rw [k.cfg, k.pc]; exact ha) (by rw [k.cfg, k.ic, k.pc]; exact hc)
    refine ⟨_, _, hstep, (Sys2Proof.Machine.fetchStage_fault m).trans hf, hfetch, rfl, k.pc, ?_, ?_⟩
    · rw [Sys2Proof.Machine.endOfCycle_prev, Sys2Proof.Machine.fetchStage_cur]; exact hdeex
    · rw [Sys2Proof.Machine.endOfCycle_prev, Sys2Proof.Machine.fetchStage_cur]; exact hexmem
end

section
/-! SUPPORT. PROOFS of the encoding family (spec/30_encoding.md): the decoder and the encoder are inverse to each other
(R91, R97 to R102, R105), the words of `UNKNOWN` (R102), and the operand forms as numbers (R92 to R96, R98, R99).

A word is taken apart by masks: what it shows under a row's mask decides which rows can read it, and its fields, put back
in their places, give the rest of it. -/

namespace Sys2Proof

open Machine (tagOfWord)

/-! ### Fields and places -/

theorem field_or (a b : InstWord) (lo n : Nat) : field (a ||| b) lo n = field a lo n ||| field b lo n :=
  BitVec.extractLsb'_or

theorem field_and (a b : InstWord) (lo n : Nat) : field (a &&& b) lo n = field a lo n &&& field b lo n :=
  BitVec.extractLsb'_and

theorem getLsbD_field (w : InstWord) (lo n i : Nat) :
    (field w lo n).getLsbD i = (decide (i < n) && w.getLsbD (lo + i)) := by
  simp [field]

theorem getLsbD_place {n : Nat} (v : BitVec n) (lo : Nat) {i : Nat} (hi : i < 32) :
    (place v lo).getLsbD i = (decide (lo ≤ i) && v.getLsbD (i - lo)) := by
  by_cases hlo : lo ≤ i
  · simp [place, hi, hlo, Nat.not_lt.mpr hlo]
  · simp [place, hlo, Nat.lt_of_not_le hlo]

/-- A field holds the value that was placed there. -/
theorem field_place {n : Nat} (v : BitVec n) {lo : Nat} (h : lo + n ≤ 32) : field (place v lo) lo n = v := by
  refine BitVec.eq_of_getLsbD_eq fun i hi => ?_
  rw [getLsbD_field, getLsbD_place v lo (by omega)]
  simp [hi]

/-- A field holds nothing of a value placed beside it. -/
theorem field_place_of_disjoint {k : Nat} (v : BitVec k) {p lo n : Nat} (hw : lo + n ≤ 32) (h : p + k ≤ lo ∨ lo + n ≤ p) :
    field (place v p) lo n = 0#n := by
  refine BitVec.eq_of_getLsbD_eq fun i hi => ?_
  rw [getLsbD_field, getLsbD_place v p (by omega)]
  rcases h with habove | hbelow
  · simp [BitVec.getLsbD_of_ge v (lo + i - p) (by omega)]
  · have : ¬ p ≤ lo + i := by omega
    simp [this]

/-- A field outside the mask of a row's value is zero. -/
theorem field_eq_zero_of_and {base m : InstWord} (h : base &&& m = base) {lo n : Nat} (hm : field m lo n = 0#n) :
    field base lo n = 0#n := by
  rw [← h, field_and, hm, BitVec.and_zero]

/-- A mask over a whole field fixes it. -/
theorem field_eq_of_and {w m v : InstWord} (h : w &&& m = v) {lo n : Nat} (hm : field m lo n = BitVec.allOnes n) :
    field w lo n = field v lo n := by
  rw [← h, field_and, hm, BitVec.and_allOnes]

/-- A mask that leaves a field out removes a value placed there. -/
theorem place_and_eq_zero {n : Nat} (v : BitVec n) {lo : Nat} {m : InstWord} (hm : field m lo n = 0#n) :
    place v lo &&& m = 0#32 := by
  refine BitVec.eq_of_getLsbD_eq fun i hi => ?_
  rw [BitVec.getLsbD_and, getLsbD_place v lo hi]
  by_cases hin : lo ≤ i ∧ i - lo < n
  · obtain ⟨hlo, hn⟩ := hin
    have hbit : m.getLsbD i = (field m lo n).getLsbD (i - lo) := by
      rw [getLsbD_field, decide_eq_true hn, Bool.true_and, Nat.add_sub_cancel' hlo]
    simp [hbit, hm]
  · by_cases hlo : lo ≤ i
    · simp [BitVec.getLsbD_of_ge v (i - lo) (by omega)]
    · simp [hlo]

/-- A field put back in its place is the part of the word under the field's mask. -/
theorem place_field (w : InstWord) (lo n : Nat) : place (field w lo n) lo = w &&& place (BitVec.allOnes n) lo := by
  refine BitVec.eq_of_getLsbD_eq fun i hi => ?_
  rw [BitVec.getLsbD_and, getLsbD_place _ lo hi, getLsbD_place _ lo hi]
  by_cases hin : lo ≤ i
  · simp [getLsbD_field, hin, Nat.add_sub_cancel' hin, Bool.and_comm]
  · simp [hin]

/-- Masks that cover the word lose none of it. -/
theorem and_eq_self_of_cover (w : InstWord) {c : InstWord} (h : c = BitVec.allOnes 32) : w &&& c = w := by
  rw [h, BitVec.and_allOnes]

/-- A word that matches under a mask matches under a smaller one. -/
theorem and_eq_of_narrower {w m v : InstWord} (h : w &&& m = v) {m' : InstWord} (hm : m &&& m' = m') :
    w &&& m' = v &&& m' := by
  rw [← h, BitVec.and_assoc, hm]

/-! ### Codes of shift kinds and extensions (R98, R99) -/

theorem ShiftType.ofBits_bits (k : ShiftType) : ShiftType.ofBits k.bits = k := by cases k <;> rfl

theorem ShiftType.bits_ofBits : ∀ v : BitVec 2, (ShiftType.ofBits v).bits = v := by decide

theorem ShiftType.addSubLegal_ofBits : ∀ v : BitVec 2, (ShiftType.ofBits v).addSubLegal = true ↔ v ≠ 0b11#2 := by decide

theorem Extend.ofBits_bits (e : Extend) : Extend.ofBits e.bits = e := by cases e <;> rfl

theorem Extend.bits_ofBits : ∀ v : BitVec 3, (Extend.ofBits v).bits = v := by decide

theorem extendAmountLegal_iff (v : BitVec 3) : extendAmountLegal v = true ↔ v.toNat ≤ 4 := decide_eq_true_iff

/-! ### The table -/

theorem Row.hits_iff (r : Row) (w : InstWord) : r.hits w = true ↔ w &&& r.mask = r.value := beq_iff_eq

/-- Some word that reads `v` under the mask `m` may match the row: they agree on the bits that both fix. -/
def Row.meets (r : Row) (m v : InstWord) : Bool := r.value &&& m == v &&& r.mask

theorem Row.meets_of_hits {r : Row} {w m v : InstWord} (h : w &&& m = v) (hit : r.hits w = true) : r.meets m v = true := by
  rw [Row.hits_iff] at hit
  rw [Row.meets, beq_iff_eq, ← h, ← hit, BitVec.and_assoc, BitVec.and_assoc, BitVec.and_comm m]

/-- Of a word known under a mask, only the rows that agree with what is known need be tried. -/
theorem decodeRows_filter_meets {w m v : InstWord} (h : w &&& m = v) (rows : List Row) :
    decodeRows (rows.filter (·.meets m v)) w = decodeRows rows w := by
  induction rows with
  | nil => rfl
  | cons r rest ih =>
    by_cases hit : r.hits w = true
    · simp [r.meets_of_hits h hit, decodeRows, hit]
    · by_cases hm : r.meets m v = true <;> simp [hm, decodeRows, hit, ih]

/-- A word that shows the pattern of a row is read by it, when it is the first row that agrees with that pattern. -/
theorem decode_of_candidates {w m v : InstWord} {mn : String} {read : InstWord → Decoded} {rest : List Row}
    (h : w &&& m = v) (hc : opcodeRows.filter (·.meets m v) = ⟨mn, m, v, read⟩ :: rest) : decode w = read w := by
  rw [decode, ← decodeRows_filter_meets h, hc, decodeRows, if_pos ((Row.hits_iff _ _).mpr h)]

/-- A word of a `SUBS` pattern matches the `CMP` row, which fixes `Rd` as well, exactly with `Rd = 31` (R101). -/
theorem and_cmpMask_iff {w m v : InstWord} (h : w &&& m = v) (hm : field m 0 5 = 0#5) :
    w &&& (m ||| 0x1F#32) = v ||| 0x1F#32 ↔ field w 0 5 = zeroReg := by
  have hrd : w &&& 0x1F#32 = place (field w 0 5) 0 := (place_field w 0 5).symm
  have hv : field v 0 5 = 0#5 := by rw [← h, field_and, hm, BitVec.and_zero]
  rw [BitVec.and_or_distrib_left, h, hrd]
  refine ⟨fun e => ?_, fun e => by rw [e]; rfl⟩
  calc field w 0 5 = field (v ||| place (field w 0 5) 0) 0 5 := by
        rw [field_or, hv, field_place _ (by decide), BitVec.zero_or]
    _ = field (v ||| 0x1F#32) 0 5 := by rw [e]
    _ = zeroReg := by rw [field_or, hv]; rfl

/-- Of a `SUBS` pattern the `CMP` row, which stands first, reads the words with `Rd = 31` (R101). -/
theorem decode_of_cmpCandidates {w m v : InstWord} {mnC mnS : String} {readC readS : InstWord → Decoded}
    (h : w &&& m = v) (hm : field m 0 5 = 0#5)
    (hc : opcodeRows.filter (·.meets m v) = [⟨mnC, m ||| 0x1F#32, v ||| 0x1F#32, readC⟩, ⟨mnS, m, v, readS⟩]) :
    decode w = if field w 0 5 = zeroReg then readC w else readS w := by
  have hsubs : (⟨mnS, m, v, readS⟩ : Row).hits w = true := (Row.hits_iff _ _).mpr h
  rw [decode, ← decodeRows_filter_meets h, hc, decodeRows, decodeRows, if_pos hsubs]
  simp only [Row.hits_iff, and_cmpMask_iff h hm]

/-- The decoder answers for no row, or as some row that matches reads the word. -/
theorem decode_cases (w : InstWord) :
    ((∀ r ∈ opcodeRows, w &&& r.mask ≠ r.value) ∧ decode w = .rejected (rejectUnmatched w)) ∨
    ∃ r ∈ opcodeRows, w &&& r.mask = r.value ∧ decode w = r.read w := by
  unfold decode
  generalize opcodeRows = rows
  induction rows with
  | nil => exact .inl ⟨nofun, rfl⟩
  | cons r rest ih =>
    by_cases hit : w &&& r.mask = r.value
    · exact .inr ⟨r, List.mem_cons_self, hit, if_pos ((r.hits_iff w).mpr hit)⟩
    · have hrest : decodeRows (r :: rest) w = decodeRows rest w := if_neg (mt (r.hits_iff w).mp hit)
      rw [hrest]
      rcases ih with ⟨hnone, e⟩ | ⟨q, hq, hitq, e⟩
      · exact .inl ⟨List.forall_mem_cons.mpr ⟨hit, hnone⟩, e⟩
      · exact .inr ⟨q, List.mem_cons_of_mem r hq, hitq, e⟩

/-! ### The formats: a word of a format shows its base under the mask, and reads as its operands -/

theorem encAddSubImm_and {base : InstWord} (hb : base &&& 0xFF800000#32 = base) (sh : BitVec 1) (imm12 : BitVec 12)
    (rn rd : Reg) : encAddSubImm base sh imm12 rn rd &&& 0xFF800000#32 = base := by
  simp (disch := decide) only [encAddSubImm, BitVec.and_or_distrib_right, place_and_eq_zero, hb, BitVec.or_zero]

theorem encShifted_and {base : InstWord} (hb : base &&& 0xFF200000#32 = base) (shift : ShiftType) (rm : Reg)
    (imm6 : BitVec 6) (rn rd : Reg) : encShifted base shift rm imm6 rn rd &&& 0xFF200000#32 = base := by
  simp (disch := decide) only [encShifted, BitVec.and_or_distrib_right, place_and_eq_zero, hb, BitVec.or_zero]

theorem encExtended_and {base : InstWord} (hb : base &&& 0xFFE00000#32 = base) (rm : Reg) (option : Extend)
    (imm3 : BitVec 3) (rn rd : Reg) : encExtended base rm option imm3 rn rd &&& 0xFFE00000#32 = base := by
  simp (disch := decide) only [encExtended, BitVec.and_or_distrib_right, place_and_eq_zero, hb, BitVec.or_zero]

theorem encBitfield_and (immr imms : BitVec 6) (rn rd : Reg) :
    encBitfield immr imms rn rd &&& 0xFFC00000#32 = 0xD3400000#32 := by
  simp (disch := decide) only [encBitfield, BitVec.and_or_distrib_right, place_and_eq_zero, BitVec.reduceAnd, BitVec.or_zero]

theorem encode_movz_and (hw : BitVec 2) (imm16 : BitVec 16) (rd : Reg) :
    encode (.movz hw imm16 rd) &&& 0xFF800000#32 = 0xD2800000#32 := by
  simp (disch := decide) only [encode, BitVec.and_or_distrib_right, place_and_eq_zero, BitVec.reduceAnd, BitVec.or_zero]

theorem encode_mul_and (rm rn rd : Reg) : encode (.mul rm rn rd) &&& 0xFFE0FC00#32 = 0x9B007C00#32 := by
  simp (disch := decide) only [encode, BitVec.and_or_distrib_right, place_and_eq_zero, BitVec.reduceAnd, BitVec.or_zero]

theorem encLoadStore_and {base : InstWord} (hb : base &&& 0xFFE00C00#32 = base) (imm9 : BitVec 9) (rn rt : Reg) :
    encLoadStore base imm9 rn rt &&& 0xFFE00C00#32 = base := by
  simp (disch := decide) only [encLoadStore, BitVec.and_or_distrib_right, place_and_eq_zero, hb, BitVec.or_zero]

theorem encode_b_and (imm26 : BitVec 26) : encode (.b imm26) &&& 0xFC000000#32 = 0x14000000#32 := by
  simp (disch := decide) only [encode, BitVec.and_or_distrib_right, place_and_eq_zero, BitVec.reduceAnd, BitVec.or_zero]

theorem encode_br_and (rn : Reg) : encode (.br rn) &&& 0xFFFFFC1F#32 = 0xD61F0000#32 := by
  simp (disch := decide) only [encode, BitVec.and_or_distrib_right, place_and_eq_zero, BitVec.reduceAnd, BitVec.or_zero]

theorem encBranchCond_and {base : InstWord} (hb : base &&& 0xFF00001F#32 = base) (imm19 : BitVec 19) :
    encBranchCond base imm19 &&& 0xFF00001F#32 = base := by
  simp (disch := decide) only [encBranchCond, BitVec.and_or_distrib_right, place_and_eq_zero, hb, BitVec.or_zero]

theorem encCompareBranch_and {base : InstWord} (hb : base &&& 0xFF000000#32 = base) (imm19 : BitVec 19) (rt : Reg) :
    encCompareBranch base imm19 rt &&& 0xFF000000#32 = base := by
  simp (disch := decide) only [encCompareBranch, BitVec.and_or_distrib_right, place_and_eq_zero, hb, BitVec.or_zero]

theorem encode_hlt_and (imm16 : BitVec 16) : encode (.hlt imm16) &&& 0xFFE0001F#32 = 0xD4400000#32 := by
  simp (disch := decide) only [encode, BitVec.and_or_distrib_right, place_and_eq_zero, BitVec.reduceAnd, BitVec.or_zero]

/-! ### The formats: reading the operands of an encoded instruction -/

theorem readAddSubImm_encAddSubImm {base : InstWord} (hb : base &&& 0xFF800000#32 = base)
    (mk : BitVec 1 → BitVec 12 → Reg → Reg → Instr) (sh : BitVec 1) (imm12 : BitVec 12) (rn rd : Reg) :
    readAddSubImm mk (encAddSubImm base sh imm12 rn rd) = .instr (mk sh imm12 rn rd) := by
  simp (disch := decide) only [readAddSubImm, encAddSubImm, field_or, field_eq_zero_of_and hb, field_place,
    field_place_of_disjoint, BitVec.or_zero, BitVec.zero_or]

theorem readShifted_encShifted {base : InstWord} (hb : base &&& 0xFF200000#32 = base)
    (mk : ShiftType → Reg → BitVec 6 → Reg → Reg → Instr) (shift : ShiftType) (rm : Reg) (imm6 : BitVec 6) (rn rd : Reg) :
    readShifted mk (encShifted base shift rm imm6 rn rd) = .instr (mk shift rm imm6 rn rd) := by
  simp (disch := decide) only [readShifted, encShifted, field_or, field_eq_zero_of_and hb, field_place,
    field_place_of_disjoint, BitVec.or_zero, BitVec.zero_or, ShiftType.ofBits_bits]

theorem readAddSubShifted_encShifted {base : InstWord} (hb : base &&& 0xFF200000#32 = base)
    (mk : ShiftType → Reg → BitVec 6 → Reg → Reg → Instr) {shift : ShiftType} (hs : shift.addSubLegal = true) (rm : Reg)
    (imm6 : BitVec 6) (rn rd : Reg) :
    readAddSubShifted mk (encShifted base shift rm imm6 rn rd) = .instr (mk shift rm imm6 rn rd) := by
  have hfield : field (encShifted base shift rm imm6 rn rd) 22 2 = shift.bits := by
    simp (disch := decide) only [encShifted, field_or, field_eq_zero_of_and hb, field_place, field_place_of_disjoint,
      BitVec.or_zero, BitVec.zero_or]
  rw [readAddSubShifted, hfield, ShiftType.ofBits_bits, if_pos hs, readShifted_encShifted hb]

theorem readAddSubExtended_encExtended {base : InstWord} (hb : base &&& 0xFFE00000#32 = base)
    (mk : Reg → Extend → BitVec 3 → Reg → Reg → Instr) (rm : Reg) (option : Extend) {imm3 : BitVec 3}
    (hl : extendAmountLegal imm3 = true) (rn rd : Reg) :
    readAddSubExtended mk (encExtended base rm option imm3 rn rd) = .instr (mk rm option imm3 rn rd) := by
  simp (disch := decide) only [readAddSubExtended, encExtended, field_or, field_eq_zero_of_and hb, field_place,
    field_place_of_disjoint, BitVec.or_zero, BitVec.zero_or, Extend.ofBits_bits, hl, if_true]

/-- A `BITFIELD` word has the classification of its own `immr` and `imms` (R97). -/
theorem readBitfield_encBitfield (immr imms : BitVec 6) (rn rd : Reg) :
    readBitfield (encBitfield immr imms rn rd) =
      if imms = 63#6 then .instr (.lsrI immr rn rd)
      else if immr = imms + 1#6 then .instr (.lslI (63#6 - imms) rn rd)
      else .rejected .bitfieldForm := by
  have hb : 0xD3400000#32 &&& 0xFFC00000#32 = 0xD3400000#32 := rfl
  simp (disch := decide) only [readBitfield, encBitfield, field_or, field_eq_zero_of_and hb, field_place,
    field_place_of_disjoint, BitVec.or_zero, BitVec.zero_or]

theorem readMoveWide_encode (hw : BitVec 2) (imm16 : BitVec 16) (rd : Reg) :
    readMoveWide (encode (.movz hw imm16 rd)) = .instr (.movz hw imm16 rd) := by
  have hb : 0xD2800000#32 &&& 0xFF800000#32 = 0xD2800000#32 := rfl
  simp (disch := decide) only [readMoveWide, encode, field_or, field_eq_zero_of_and hb, field_place,
    field_place_of_disjoint, BitVec.or_zero, BitVec.zero_or]

theorem readMul_encode (rm rn rd : Reg) : readMul (encode (.mul rm rn rd)) = .instr (.mul rm rn rd) := by
  have hb : 0x9B007C00#32 &&& 0xFFE0FC00#32 = 0x9B007C00#32 := rfl
  simp (disch := decide) only [readMul, encode, field_or, field_eq_zero_of_and hb, field_place,
    field_place_of_disjoint, BitVec.or_zero, BitVec.zero_or]

theorem readLoadStore_encLoadStore {base : InstWord} (hb : base &&& 0xFFE00C00#32 = base)
    (mk : BitVec 9 → Reg → Reg → Instr) (imm9 : BitVec 9) (rn rt : Reg) :
    readLoadStore mk (encLoadStore base imm9 rn rt) = .instr (mk imm9 rn rt) := by
  simp (disch := decide) only [readLoadStore, encLoadStore, field_or, field_eq_zero_of_and hb, field_place,
    field_place_of_disjoint, BitVec.or_zero, BitVec.zero_or]

theorem readBranch_encode (imm26 : BitVec 26) : readBranch (encode (.b imm26)) = .instr (.b imm26) := by
  have hb : 0x14000000#32 &&& 0xFC000000#32 = 0x14000000#32 := rfl
  simp (disch := decide) only [readBranch, encode, field_or, field_eq_zero_of_and hb, field_place, BitVec.zero_or]

theorem readBranchReg_encode (rn : Reg) : readBranchReg (encode (.br rn)) = .instr (.br rn) := by
  have hb : 0xD61F0000#32 &&& 0xFFFFFC1F#32 = 0xD61F0000#32 := rfl
  simp (disch := decide) only [readBranchReg, encode, field_or, field_eq_zero_of_and hb, field_place, BitVec.zero_or]

theorem readBranchCond_encBranchCond {base : InstWord} (hb : base &&& 0xFF00001F#32 = base) (mk : BitVec 19 → Instr)
    (imm19 : BitVec 19) : readBranchCond mk (encBranchCond base imm19) = .instr (mk imm19) := by
  simp (disch := decide) only [readBranchCond, encBranchCond, field_or, field_eq_zero_of_and hb, field_place,
    BitVec.zero_or]

theorem readCompareBranch_encCompareBranch {base : InstWord} (hb : base &&& 0xFF000000#32 = base)
    (mk : BitVec 19 → Reg → Instr) (imm19 : BitVec 19) (rt : Reg) :
    readCompareBranch mk (encCompareBranch base imm19 rt) = .instr (mk imm19 rt) := by
  simp (disch := decide) only [readCompareBranch, encCompareBranch, field_or, field_eq_zero_of_and hb, field_place,
    field_place_of_disjoint, BitVec.or_zero, BitVec.zero_or]

theorem readHalt_encode (imm16 : BitVec 16) : readHalt (encode (.hlt imm16)) = .instr (.hlt imm16) := by
  have hb : 0xD4400000#32 &&& 0xFFE0001F#32 = 0xD4400000#32 := rfl
  simp (disch := decide) only [readHalt, encode, field_or, field_eq_zero_of_and hb, field_place, BitVec.zero_or]

/-- `Rd` stands in bits 4 to 0 of the formats that have a `CMP` row. -/
theorem encAddSubImm_rd {base : InstWord} (hb : base &&& 0xFF800000#32 = base) (sh : BitVec 1) (imm12 : BitVec 12)
    (rn rd : Reg) : field (encAddSubImm base sh imm12 rn rd) 0 5 = rd := by
  simp (disch := decide) only [encAddSubImm, field_or, field_eq_zero_of_and hb, field_place, field_place_of_disjoint,
    BitVec.zero_or]

theorem encShifted_rd {base : InstWord} (hb : base &&& 0xFF200000#32 = base) (shift : ShiftType) (rm : Reg)
    (imm6 : BitVec 6) (rn rd : Reg) : field (encShifted base shift rm imm6 rn rd) 0 5 = rd := by
  simp (disch := decide) only [encShifted, field_or, field_eq_zero_of_and hb, field_place, field_place_of_disjoint,
    BitVec.zero_or]

theorem encExtended_rd {base : InstWord} (hb : base &&& 0xFFE00000#32 = base) (rm : Reg) (option : Extend)
    (imm3 : BitVec 3) (rn rd : Reg) : field (encExtended base rm option imm3 rn rd) 0 5 = rd := by
  simp (disch := decide) only [encExtended, field_or, field_eq_zero_of_and hb, field_place, field_place_of_disjoint,
    BitVec.zero_or]

/-! ### The patterns that two rows share (R97, R101) -/

theorem decode_cmpI_subsI {w : InstWord} (h : w &&& 0xFF800000#32 = 0xF1000000#32) :
    decode w = if field w 0 5 = zeroReg then readCmpImm w else readAddSubImm .subsI w :=
  decode_of_cmpCandidates h rfl rfl

theorem decode_cmpSR_subsSR {w : InstWord} (h : w &&& 0xFF200000#32 = 0xEB000000#32) :
    decode w =
      if field w 0 5 = zeroReg then readAddSubShifted (fun shift rm imm6 rn _ => .cmpSR shift rm imm6 rn) w
      else readAddSubShifted .subsSR w :=
  decode_of_cmpCandidates h rfl rfl

theorem decode_cmpER_subsER {w : InstWord} (h : w &&& 0xFFE00000#32 = 0xEB200000#32) :
    decode w =
      if field w 0 5 = zeroReg then readAddSubExtended (fun rm option imm3 rn _ => .cmpER rm option imm3 rn) w
      else readAddSubExtended .subsER w :=
  decode_of_cmpCandidates h rfl rfl

theorem decode_bitfield {w : InstWord} (h : w &&& 0xFFC00000#32 = 0xD3400000#32) : decode w = readBitfield w :=
  decode_of_candidates h rfl

/-! ### Decoding after encoding -/

/-- An `LSL` by 1 to 63 has the `immr` and `imms` that R97 reads back as its amount. -/
theorem decode_encode_lslI {shamt : BitVec 6} (h : shamt ≠ 0#6) (rn rd : Reg) :
    decode (encode (.lslI shamt rn rd)) = .instr (.lslI shamt rn rd) := by
  have himms : 63#6 - shamt ≠ 63#6 := by bv_omega
  have himmr : 0#6 - shamt = 63#6 - shamt + 1#6 := by bv_omega
  have hamount : 63#6 - (63#6 - shamt) = shamt := by bv_omega
  rw [encode, decode_bitfield (encBitfield_and ..), readBitfield_encBitfield, if_neg himms, if_pos himmr, hamount]

theorem decode_encode_lsrI (shamt : BitVec 6) (rn rd : Reg) :
    decode (encode (.lsrI shamt rn rd)) = .instr (.lsrI shamt rn rd) := by
  rw [encode, decode_bitfield (encBitfield_and ..), readBitfield_encBitfield, if_pos rfl]

theorem decode_encode_cmpI (sh : BitVec 1) (imm12 : BitVec 12) (rn : Reg) :
    decode (encode (.cmpI sh imm12 rn)) = .instr (.cmpI sh imm12 rn) := by
  rw [encode, decode_cmpI_subsI (encAddSubImm_and rfl ..), if_pos (encAddSubImm_rd rfl ..)]
  exact readAddSubImm_encAddSubImm rfl (fun sh imm12 rn _ => .cmpI sh imm12 rn) ..

theorem decode_encode_subsI (sh : BitVec 1) (imm12 : BitVec 12) (rn : Reg) {rd : Reg} (h : rd ≠ zeroReg) :
    decode (encode (.subsI sh imm12 rn rd)) = .instr (.subsI sh imm12 rn rd) := by
  rw [encode, decode_cmpI_subsI (encAddSubImm_and rfl ..), encAddSubImm_rd rfl, if_neg h, readAddSubImm_encAddSubImm rfl]

theorem decode_encode_cmpSR {shift : ShiftType} (hs : shift.addSubLegal = true) (rm : Reg) (imm6 : BitVec 6) (rn : Reg) :
    decode (encode (.cmpSR shift rm imm6 rn)) = .instr (.cmpSR shift rm imm6 rn) := by
  rw [encode, decode_cmpSR_subsSR (encShifted_and rfl ..), if_pos (encShifted_rd rfl ..),
    readAddSubShifted_encShifted rfl _ hs]

theorem decode_encode_subsSR {shift : ShiftType} (hs : shift.addSubLegal = true) (rm : Reg) (imm6 : BitVec 6) (rn : Reg)
    {rd : Reg} (h : rd ≠ zeroReg) :
    decode (encode (.subsSR shift rm imm6 rn rd)) = .instr (.subsSR shift rm imm6 rn rd) := by
  rw [encode, decode_cmpSR_subsSR (encShifted_and rfl ..), encShifted_rd rfl, if_neg h,
    readAddSubShifted_encShifted rfl _ hs]

theorem decode_encode_cmpER (rm : Reg) (option : Extend) {imm3 : BitVec 3} (hl : extendAmountLegal imm3 = true) (rn : Reg) :
    decode (encode (.cmpER rm option imm3 rn)) = .instr (.cmpER rm option imm3 rn) := by
  rw [encode, decode_cmpER_subsER (encExtended_and rfl ..), if_pos (encExtended_rd rfl ..),
    readAddSubExtended_encExtended rfl _ _ _ hl]

theorem decode_encode_subsER (rm : Reg) (option : Extend) {imm3 : BitVec 3} (hl : extendAmountLegal imm3 = true) (rn : Reg)
    {rd : Reg} (h : rd ≠ zeroReg) :
    decode (encode (.subsER rm option imm3 rn rd)) = .instr (.subsER rm option imm3 rn rd) := by
  rw [encode, decode_cmpER_subsER (encExtended_and rfl ..), encExtended_rd rfl, if_neg h,
    readAddSubExtended_encExtended rfl _ _ _ hl]

/-- Each instruction's word shows its row's value under the row's mask, which leaves that row alone to read it, or with
its `CMP` or `SUBS` row, and the row reads the operands back. -/
theorem decode_encode (i : Instr) (h : i.wellFormed = true) : decode (encode i) = .instr i := by
  cases i with
  | addI | addsI | subI =>
    exact (decode_of_candidates (encAddSubImm_and rfl ..) rfl).trans (readAddSubImm_encAddSubImm rfl ..)
  | cmpI => exact decode_encode_cmpI ..
  | subsI => exact decode_encode_subsI _ _ _ (bne_iff_ne.mp h)
  | addSR | addsSR | subSR =>
    exact (decode_of_candidates (encShifted_and rfl ..) rfl).trans (readAddSubShifted_encShifted rfl _ h ..)
  | cmpSR => exact decode_encode_cmpSR h ..
  | subsSR =>
    obtain ⟨hs, hrd⟩ := Bool.and_eq_true_iff.mp h
    exact decode_encode_subsSR hs _ _ _ (bne_iff_ne.mp hrd)
  | addER | addsER | subER =>
    exact (decode_of_candidates (encExtended_and rfl ..) rfl).trans (readAddSubExtended_encExtended rfl _ _ _ h ..)
  | cmpER => exact decode_encode_cmpER _ _ h _
  | subsER =>
    obtain ⟨hl, hrd⟩ := Bool.and_eq_true_iff.mp h
    exact decode_encode_subsER _ _ hl _ (bne_iff_ne.mp hrd)
  | andSR | andsSR | orrSR | eorSR =>
    exact (decode_of_candidates (encShifted_and rfl ..) rfl).trans (readShifted_encShifted rfl ..)
  | lslI => exact decode_encode_lslI (bne_iff_ne.mp h) ..
  | lsrI => exact decode_encode_lsrI ..
  | movz => exact (decode_of_candidates (encode_movz_and ..) rfl).trans (readMoveWide_encode ..)
  | mul => exact (decode_of_candidates (encode_mul_and ..) rfl).trans (readMul_encode ..)
  | ldurX | ldurW | ldurh | ldurb | sturX | sturW | sturh | sturb =>
    exact (decode_of_candidates (encLoadStore_and rfl ..) rfl).trans (readLoadStore_encLoadStore rfl ..)
  | b => exact (decode_of_candidates (encode_b_and ..) rfl).trans (readBranch_encode ..)
  | br => exact (decode_of_candidates (encode_br_and ..) rfl).trans (readBranchReg_encode ..)
  | bEQ | bNE | bGE | bLT | bGT | bLE =>
    exact (decode_of_candidates (encBranchCond_and rfl ..) rfl).trans (readBranchCond_encBranchCond rfl ..)
  | cbz | cbnz =>
    exact (decode_of_candidates (encCompareBranch_and rfl ..) rfl).trans (readCompareBranch_encCompareBranch rfl ..)
  | hlt => exact (decode_of_candidates (encode_hlt_and ..) rfl).trans (readHalt_encode ..)

/-! ### The formats: a word that shows a format's base is the encoding of its operands -/

theorem encAddSubImm_fields {w base : InstWord} (h : w &&& 0xFF800000#32 = base) :
    encAddSubImm base (field w 22 1) (field w 10 12) (field w 5 5) (field w 0 5) = w := by
  simp only [encAddSubImm, place_field, ← h, ← BitVec.and_or_distrib_left]
  exact and_eq_self_of_cover w rfl

theorem encShifted_fields {w base : InstWord} (h : w &&& 0xFF200000#32 = base) :
    encShifted base (ShiftType.ofBits (field w 22 2)) (field w 16 5) (field w 10 6) (field w 5 5) (field w 0 5) = w := by
  simp only [encShifted, ShiftType.bits_ofBits, place_field, ← h, ← BitVec.and_or_distrib_left]
  exact and_eq_self_of_cover w rfl

theorem encExtended_fields {w base : InstWord} (h : w &&& 0xFFE00000#32 = base) :
    encExtended base (field w 16 5) (Extend.ofBits (field w 13 3)) (field w 10 3) (field w 5 5) (field w 0 5) = w := by
  simp only [encExtended, Extend.bits_ofBits, place_field, ← h, ← BitVec.and_or_distrib_left]
  exact and_eq_self_of_cover w rfl

theorem encBitfield_fields {w : InstWord} (h : w &&& 0xFFC00000#32 = 0xD3400000#32) :
    encBitfield (field w 16 6) (field w 10 6) (field w 5 5) (field w 0 5) = w := by
  simp only [encBitfield, place_field, ← h, ← BitVec.and_or_distrib_left]
  exact and_eq_self_of_cover w rfl

theorem encode_movz_fields {w : InstWord} (h : w &&& 0xFF800000#32 = 0xD2800000#32) :
    encode (.movz (field w 21 2) (field w 5 16) (field w 0 5)) = w := by
  simp only [encode, place_field, ← h, ← BitVec.and_or_distrib_left]
  exact and_eq_self_of_cover w rfl

theorem encode_mul_fields {w : InstWord} (h : w &&& 0xFFE0FC00#32 = 0x9B007C00#32) :
    encode (.mul (field w 16 5) (field w 5 5) (field w 0 5)) = w := by
  simp only [encode, place_field, ← h, ← BitVec.and_or_distrib_left]
  exact and_eq_self_of_cover w rfl

theorem encLoadStore_fields {w base : InstWord} (h : w &&& 0xFFE00C00#32 = base) :
    encLoadStore base (field w 12 9) (field w 5 5) (field w 0 5) = w := by
  simp only [encLoadStore, place_field, ← h, ← BitVec.and_or_distrib_left]
  exact and_eq_self_of_cover w rfl

theorem encode_b_field {w : InstWord} (h : w &&& 0xFC000000#32 = 0x14000000#32) : encode (.b (field w 0 26)) = w := by
  simp only [encode, place_field, ← h, ← BitVec.and_or_distrib_left]
  exact and_eq_self_of_cover w rfl

theorem encode_br_field {w : InstWord} (h : w &&& 0xFFFFFC1F#32 = 0xD61F0000#32) : encode (.br (field w 5 5)) = w := by
  simp only [encode, place_field, ← h, ← BitVec.and_or_distrib_left]
  exact and_eq_self_of_cover w rfl

theorem encBranchCond_field {w base : InstWord} (h : w &&& 0xFF00001F#32 = base) :
    encBranchCond base (field w 5 19) = w := by
  simp only [encBranchCond, place_field, ← h, ← BitVec.and_or_distrib_left]
  exact and_eq_self_of_cover w rfl

theorem encCompareBranch_fields {w base : InstWord} (h : w &&& 0xFF000000#32 = base) :
    encCompareBranch base (field w 5 19) (field w 0 5) = w := by
  simp only [encCompareBranch, place_field, ← h, ← BitVec.and_or_distrib_left]
  exact and_eq_self_of_cover w rfl

theorem encode_hlt_field {w : InstWord} (h : w &&& 0xFFE0001F#32 = 0xD4400000#32) : encode (.hlt (field w 5 16)) = w := by
  simp only [encode, place_field, ← h, ← BitVec.and_or_distrib_left]
  exact and_eq_self_of_cover w rfl

/-! ### What an answer of the decoder says of the word -/

/-- No row matches the word (R102). -/
def Unmatched (w : InstWord) : Prop := ∀ r ∈ opcodeRows, w &&& r.mask ≠ r.value

/-- `ADDSUB_SR` with `shift = 11` (R98, R102). -/
def ReservedShift (w : InstWord) : Prop := w &&& 0x9F200000#32 = 0x8B000000#32 ∧ field w 22 2 = 0b11#2

/-- `ADDSUB_ER` with `imm3` above 4 (R99, R102). -/
def ReservedAmount (w : InstWord) : Prop := w &&& 0x9FE00000#32 = 0x8B200000#32 ∧ 4 < (field w 10 3).toNat

/-- A `BITFIELD` word that is neither `LSR` nor `LSL` (R97). -/
def ReservedBitfield (w : InstWord) : Prop :=
  w &&& 0xFFC00000#32 = 0xD3400000#32 ∧ field w 10 6 ≠ 63#6 ∧ field w 16 6 ≠ field w 10 6 + 1#6

/-- A `BCOND` word whose condition is not one of the six (R100). -/
def ReservedCondition (w : InstWord) : Prop :=
  w &&& 0xFF000010#32 = 0x54000000#32 ∧
    ¬ (field w 0 4 = 0b0000#4 ∨ field w 0 4 = 0b0001#4 ∨ field w 0 4 = 0b1010#4 ∨ field w 0 4 = 0b1011#4 ∨
      field w 0 4 = 0b1100#4 ∨ field w 0 4 = 0b1101#4)

/-- The words of R102. -/
def UnknownWord (w : InstWord) : Prop :=
  Unmatched w ∨ ReservedShift w ∨ ReservedAmount w ∨ ReservedBitfield w ∨ ReservedCondition w

/-- An answer accounts for the word: an instruction is well formed and encodes as the word, and a rejection is of a word
of R102. -/
def AccountsFor (w : InstWord) : Decoded → Prop
  | .instr i => i.wellFormed = true ∧ encode i = w
  | .rejected _ => UnknownWord w

theorem readAddSubImm_accounts {w base : InstWord} {mk : BitVec 1 → BitVec 12 → Reg → Reg → Instr}
    (h : w &&& 0xFF800000#32 = base) (hwf : ∀ sh imm12 rn, (mk sh imm12 rn (field w 0 5)).wellFormed = true)
    (henc : ∀ sh imm12 rn, encode (mk sh imm12 rn (field w 0 5)) = encAddSubImm base sh imm12 rn (field w 0 5)) :
    AccountsFor w (readAddSubImm mk w) :=
  ⟨hwf .., (henc ..).trans (encAddSubImm_fields h)⟩

theorem readShifted_accounts {w base : InstWord} {mk : ShiftType → Reg → BitVec 6 → Reg → Reg → Instr}
    (h : w &&& 0xFF200000#32 = base)
    (hwf : ∀ rm imm6 rn, (mk (.ofBits (field w 22 2)) rm imm6 rn (field w 0 5)).wellFormed = true)
    (henc : ∀ shift rm imm6 rn, encode (mk shift rm imm6 rn (field w 0 5)) = encShifted base shift rm imm6 rn (field w 0 5)) :
    AccountsFor w (readShifted mk w) :=
  ⟨hwf .., (henc ..).trans (encShifted_fields h)⟩

theorem readAddSubShifted_accounts {w base : InstWord} {mk : ShiftType → Reg → BitVec 6 → Reg → Reg → Instr}
    (h : w &&& 0xFF200000#32 = base) (hb : base &&& 0x9F200000#32 = 0x8B000000#32)
    (hwf : ∀ shift rm imm6 rn, shift.addSubLegal = true → (mk shift rm imm6 rn (field w 0 5)).wellFormed = true)
    (henc : ∀ shift rm imm6 rn, encode (mk shift rm imm6 rn (field w 0 5)) = encShifted base shift rm imm6 rn (field w 0 5)) :
    AccountsFor w (readAddSubShifted mk w) := by
  rw [readAddSubShifted]
  split
  next hs => exact readShifted_accounts h (fun _ _ _ => hwf _ _ _ _ hs) henc
  next hs =>
    have hror : field w 22 2 = 0b11#2 := not_not.mp (mt (ShiftType.addSubLegal_ofBits _).mpr hs)
    exact .inr (.inl ⟨(and_eq_of_narrower h rfl).trans hb, hror⟩)

theorem readAddSubExtended_accounts {w base : InstWord} {mk : Reg → Extend → BitVec 3 → Reg → Reg → Instr}
    (h : w &&& 0xFFE00000#32 = base) (hb : base &&& 0x9FE00000#32 = 0x8B200000#32)
    (hwf : ∀ rm option imm3 rn, extendAmountLegal imm3 = true → (mk rm option imm3 rn (field w 0 5)).wellFormed = true)
    (henc : ∀ rm option imm3 rn,
      encode (mk rm option imm3 rn (field w 0 5)) = encExtended base rm option imm3 rn (field w 0 5)) :
    AccountsFor w (readAddSubExtended mk w) := by
  rw [readAddSubExtended]
  split
  next hl => exact ⟨hwf _ _ _ _ hl, (henc ..).trans (encExtended_fields h)⟩
  next hl =>
    have habove : 4 < (field w 10 3).toNat := Nat.lt_of_not_le (mt (extendAmountLegal_iff _).mpr hl)
    exact .inr (.inr (.inl ⟨(and_eq_of_narrower h rfl).trans hb, habove⟩))

theorem readBitfield_accounts {w : InstWord} (h : w &&& 0xFFC00000#32 = 0xD3400000#32) :
    AccountsFor w (readBitfield w) := by
  have hw := encBitfield_fields h
  rw [readBitfield]
  split
  next himms => exact ⟨rfl, by rw [encode, ← himms, hw]⟩
  next himms =>
    split
    next himmr =>
      have hamount : 63#6 - field w 10 6 ≠ 0#6 := by bv_omega
      have hr : 0#6 - (63#6 - field w 10 6) = field w 16 6 := by bv_omega
      have hs : 63#6 - (63#6 - field w 10 6) = field w 10 6 := by bv_omega
      exact ⟨bne_iff_ne.mpr hamount, by rw [encode, hr, hs, hw]⟩
    next himmr => exact .inr (.inr (.inr (.inl ⟨h, himms, himmr⟩)))

/-- The two rows together account for the words of `SUBS` and `CMP` with an immediate (R101, R274, R275). -/
theorem decode_accounts_cmpI_subsI {w : InstWord} (h : w &&& 0xFF800000#32 = 0xF1000000#32) :
    AccountsFor w (decode w) := by
  rw [decode_cmpI_subsI h]
  split
  next hrd =>
    exact readAddSubImm_accounts (mk := fun sh imm12 rn _ => .cmpI sh imm12 rn) h (fun _ _ _ => rfl)
      (fun _ _ _ => by rw [hrd]; rfl)
  next hrd => exact readAddSubImm_accounts h (fun _ _ _ => bne_iff_ne.mpr hrd) (fun _ _ _ => rfl)

/-- The two rows together account for the words of `SUBS` and `CMP` with a shifted register (R101, R280, R281). -/
theorem decode_accounts_cmpSR_subsSR {w : InstWord} (h : w &&& 0xFF200000#32 = 0xEB000000#32) :
    AccountsFor w (decode w) := by
  rw [decode_cmpSR_subsSR h]
  split
  next hrd => exact readAddSubShifted_accounts h rfl (fun _ _ _ _ hs => hs) (fun _ _ _ _ => by rw [hrd]; rfl)
  next hrd =>
    exact readAddSubShifted_accounts h rfl
      (fun _ _ _ _ hs => Bool.and_eq_true_iff.mpr ⟨hs, bne_iff_ne.mpr hrd⟩) (fun _ _ _ _ => rfl)

/-- The two rows together account for the words of `SUBS` and `CMP` with an extended register (R101, R286, R287). -/
theorem decode_accounts_cmpER_subsER {w : InstWord} (h : w &&& 0xFFE00000#32 = 0xEB200000#32) :
    AccountsFor w (decode w) := by
  rw [decode_cmpER_subsER h]
  split
  next hrd => exact readAddSubExtended_accounts h rfl (fun _ _ _ _ hl => hl) (fun _ _ _ _ => by rw [hrd]; rfl)
  next hrd =>
    exact readAddSubExtended_accounts h rfl
      (fun _ _ _ _ hl => Bool.and_eq_true_iff.mpr ⟨hl, bne_iff_ne.mpr hrd⟩) (fun _ _ _ _ => rfl)

theorem addSubRows_account (w : InstWord) :
    ∀ r ∈ addSubRows, w &&& r.mask = r.value → decode w = r.read w → AccountsFor w (r.read w) := by
  simp only [addSubRows, List.forall_mem_cons]
  refine ⟨?addI, ?addsI, ?subI, ?cmpI, ?subsI, ?addSR, ?addsSR, ?subSR, ?cmpSR, ?subsSR, ?addER, ?addsER, ?subER, ?cmpER,
    ?subsER, List.forall_mem_nil _⟩
  case addI | addsI | subI => exact fun h _ => readAddSubImm_accounts h (fun _ _ _ => rfl) (fun _ _ _ => rfl)
  case cmpI => exact fun h e => e ▸ decode_accounts_cmpI_subsI (and_eq_of_narrower h rfl)
  case subsI => exact fun h e => e ▸ decode_accounts_cmpI_subsI h
  case addSR | addsSR | subSR =>
    exact fun h _ => readAddSubShifted_accounts h rfl (fun _ _ _ _ hs => hs) (fun _ _ _ _ => rfl)
  case cmpSR => exact fun h e => e ▸ decode_accounts_cmpSR_subsSR (and_eq_of_narrower h rfl)
  case subsSR => exact fun h e => e ▸ decode_accounts_cmpSR_subsSR h
  case addER | addsER | subER =>
    exact fun h _ => readAddSubExtended_accounts h rfl (fun _ _ _ _ hl => hl) (fun _ _ _ _ => rfl)
  case cmpER => exact fun h e => e ▸ decode_accounts_cmpER_subsER (and_eq_of_narrower h rfl)
  case subsER => exact fun h e => e ▸ decode_accounts_cmpER_subsER h

theorem aluRows_account (w : InstWord) : ∀ r ∈ aluRows, w &&& r.mask = r.value → AccountsFor w (r.read w) := by
  simp only [aluRows, List.forall_mem_cons]
  refine ⟨?andSR, ?andsSR, ?orrSR, ?eorSR, ?lslI, ?lsrI, ?movz, ?mul, List.forall_mem_nil _⟩
  case andSR | andsSR | orrSR | eorSR =>
    exact fun h => readShifted_accounts h (fun _ _ _ => rfl) (fun _ _ _ _ => rfl)
  case lslI | lsrI => exact readBitfield_accounts
  case movz => exact fun h => ⟨rfl, encode_movz_fields h⟩
  case mul => exact fun h => ⟨rfl, encode_mul_fields h⟩

theorem loadStoreRows_account (w : InstWord) :
    ∀ r ∈ loadStoreRows, w &&& r.mask = r.value → AccountsFor w (r.read w) := by
  simp only [loadStoreRows, List.forall_mem_cons]
  refine ⟨?ldurX, ?ldurW, ?ldurh, ?ldurb, ?sturX, ?sturW, ?sturh, ?sturb, List.forall_mem_nil _⟩
  all_goals exact fun h => ⟨rfl, encLoadStore_fields h⟩

theorem controlRows_account (w : InstWord) : ∀ r ∈ controlRows, w &&& r.mask = r.value → AccountsFor w (r.read w) := by
  simp only [controlRows, List.forall_mem_cons]
  refine ⟨?b, ?br, ?bEQ, ?bNE, ?bGE, ?bLT, ?bGT, ?bLE, ?cbz, ?cbnz, ?hlt, List.forall_mem_nil _⟩
  case b => exact fun h => ⟨rfl, encode_b_field h⟩
  case br => exact fun h => ⟨rfl, encode_br_field h⟩
  case bEQ | bNE | bGE | bLT | bGT | bLE => exact fun h => ⟨rfl, encBranchCond_field h⟩
  case cbz | cbnz => exact fun h => ⟨rfl, encCompareBranch_fields h⟩
  case hlt => exact fun h => ⟨rfl, encode_hlt_field h⟩

/-- Every row of the table accounts for the words it is the one to read, so the decoder accounts for every word. -/
theorem decode_accounts (w : InstWord) : AccountsFor w (decode w) := by
  rcases decode_cases w with ⟨hnone, e⟩ | ⟨r, hr, hit, e⟩ <;> rw [e]
  · exact .inl hnone
  · simp only [opcodeRows, List.mem_append] at hr
    rcases hr with ((hr | hr) | hr) | hr
    · exact addSubRows_account w r hr hit e
    · exact aluRows_account w r hr hit
    · exact loadStoreRows_account w r hr hit
    · exact controlRows_account w r hr hit

theorem encode_of_decode {w : InstWord} {i : Instr} (h : decode w = .instr i) : i.wellFormed = true ∧ encode i = w := by
  have hw := decode_accounts w
  rwa [h] at hw

/-! ### The words of R102 -/

theorem tagOfWord_unknown_iff (w : InstWord) : tagOfWord w = .unknown ↔ ∃ why, decode w = .rejected why := by
  unfold tagOfWord
  cases decode w <;> simp

/-- A word is rejected when every row that agrees with what is known of it, and matches it, rejects it. -/
theorem decode_rejected_of_candidates {w m v : InstWord} {rows : List Row} (h : w &&& m = v)
    (hc : opcodeRows.filter (·.meets m v) = rows)
    (hrej : ∀ r ∈ rows, w &&& r.mask = r.value → ∃ why, r.read w = .rejected why) : ∃ why, decode w = .rejected why := by
  rcases decode_cases w with ⟨_, e⟩ | ⟨r, hr, hit, e⟩
  · exact ⟨_, e⟩
  · have hmem : r ∈ rows := hc ▸ List.mem_filter.mpr ⟨hr, r.meets_of_hits h ((r.hits_iff w).mpr hit)⟩
    exact e ▸ hrej r hmem hit

theorem decode_rejected_of_unmatched {w : InstWord} (h : Unmatched w) : ∃ why, decode w = .rejected why := by
  rcases decode_cases w with ⟨_, e⟩ | ⟨r, hr, hit, _⟩
  · exact ⟨_, e⟩
  · exact absurd hit (h r hr)

theorem decode_rejected_of_reservedShift {w : InstWord} (h : ReservedShift w) : ∃ why, decode w = .rejected why := by
  obtain ⟨hw, hror⟩ := h
  have hread mk : readAddSubShifted mk w = .rejected .rorInAddSub := by
    rw [readAddSubShifted, hror]; rfl
  refine decode_rejected_of_candidates (rows := [_, _, _, _, _]) hw rfl ?_
  simp [hread]

theorem decode_rejected_of_reservedAmount {w : InstWord} (h : ReservedAmount w) : ∃ why, decode w = .rejected why := by
  obtain ⟨hw, habove⟩ := h
  have hread mk : readAddSubExtended mk w = .rejected .extendAmount :=
    if_neg (mt (extendAmountLegal_iff _).mp (Nat.not_le.mpr habove))
  refine decode_rejected_of_candidates (rows := [_, _, _, _, _]) hw rfl ?_
  simp [hread]

theorem decode_rejected_of_reservedBitfield {w : InstWord} (h : ReservedBitfield w) : ∃ why, decode w = .rejected why := by
  obtain ⟨hw, himms, himmr⟩ := h
  exact ⟨_, by rw [decode_bitfield hw, readBitfield, if_neg himms, if_neg himmr]⟩

/-- The rows that agree with the `BCOND` format are those of the six conditions, each of which fixes `cond`. -/
theorem decode_rejected_of_reservedCondition {w : InstWord} (h : ReservedCondition w) : ∃ why, decode w = .rejected why := by
  obtain ⟨hw, hcond⟩ := h
  have hfixed {v : InstWord} (hit : w &&& 0xFF00001F#32 = v) : field w 0 4 = field v 0 4 := field_eq_of_and hit rfl
  refine decode_rejected_of_candidates (rows := [_, _, _, _, _, _]) hw rfl ?_
  simp only [List.forall_mem_cons]
  refine ⟨fun e => absurd ?_ hcond, fun e => absurd ?_ hcond, fun e => absurd ?_ hcond, fun e => absurd ?_ hcond,
    fun e => absurd ?_ hcond, fun e => absurd ?_ hcond, List.forall_mem_nil _⟩ <;> rw [hfixed e] <;> decide

theorem tagOfWord_unknown_iff_unknownWord (w : InstWord) : tagOfWord w = .unknown ↔ UnknownWord w := by
  rw [tagOfWord_unknown_iff]
  constructor
  · rintro ⟨why, e⟩
    have hw := decode_accounts w
    rwa [e] at hw
  · rintro (h | h | h | h | h)
    · exact decode_rejected_of_unmatched h
    · exact decode_rejected_of_reservedShift h
    · exact decode_rejected_of_reservedAmount h
    · exact decode_rejected_of_reservedBitfield h
    · exact decode_rejected_of_reservedCondition h

/-- The classification of R97 on numbers. -/
theorem tagOfWord_bitfield {w : InstWord} (h : w &&& 0xFFC00000#32 = 0xD3400000#32) :
    tagOfWord w =
      if (field w 10 6).toNat = 63 then .instr (.lsrI (field w 16 6) (field w 5 5) (field w 0 5))
      else if (field w 16 6).toNat = ((field w 10 6).toNat + 1) % 64 then
        .instr (.lslI (BitVec.ofNat 6 (63 - (field w 10 6).toNat)) (field w 5 5) (field w 0 5))
      else .unknown := by
  have himms : (field w 10 6).toNat = 63 ↔ field w 10 6 = 63#6 := by bv_omega
  have himmr : (field w 16 6).toNat = ((field w 10 6).toNat + 1) % 64 ↔ field w 16 6 = field w 10 6 + 1#6 := by bv_omega
  have hamount : BitVec.ofNat 6 (63 - (field w 10 6).toNat) = 63#6 - field w 10 6 := by bv_omega
  simp only [tagOfWord, decode_bitfield h, readBitfield, himms, himmr, hamount]
  split_ifs <;> rfl

namespace Machine

/-! ### Register operands as numbers -/

theorem shiftReg_lsl_toNat (v : Word) (s : BitVec 6) : (shiftReg v .lsl s).toNat = v.toNat * 2 ^ s.toNat % 2 ^ 64 := by
  rw [shiftReg, BitVec.toNat_shiftLeft, Nat.shiftLeft_eq]

theorem shiftReg_lsr_toNat (v : Word) (s : BitVec 6) : (shiftReg v .lsr s).toNat = v.toNat / 2 ^ s.toNat := by
  rw [shiftReg, BitVec.toNat_ushiftRight, Nat.shiftRight_eq_div_pow]

theorem shiftReg_asr_toInt (v : Word) (s : BitVec 6) : (shiftReg v .asr s).toInt = v.toInt / 2 ^ s.toNat := by
  rw [shiftReg, BitVec.toInt_sshiftRight, Int.shiftRight_eq_div_pow, Nat.cast_pow, Nat.cast_ofNat]

/-- `ROR` takes bit `k` from `s` places above it, around the top of the word: the right shift gives the bits that stay
below the top, the left shift those that come around. -/
theorem shiftReg_ror_getLsbD (v : Word) (s : BitVec 6) {k : Nat} (hk : k < 64) :
    (shiftReg v .ror s).getLsbD k = v.getLsbD ((k + s.toNat) % 64) := by
  have hs : s.toNat < 64 := s.isLt
  rw [shiftReg, BitVec.getLsbD_or, BitVec.getLsbD_ushiftRight, BitVec.getLsbD_shiftLeft]
  rcases Nat.lt_or_ge (k + s.toNat) 64 with hstay | haround
  · have hbelow : k < 64 - s.toNat := by omega
    simp [hbelow, Nat.mod_eq_of_lt hstay, Nat.add_comm]
  · have habove : ¬ k < 64 - s.toNat := by omega
    have hpos : (k + s.toNat) % 64 = k - (64 - s.toNat) := by omega
    have hout : v.getLsbD (s.toNat + k) = false := BitVec.getLsbD_of_ge v _ (by omega)
    rw [hpos, hout]
    simp [hk, habove]

/-- A zero extension is the low part as an unsigned number. -/
theorem zeroExtend_low_toNat (v : Word) {n : Nat} (hn : n ≤ 64) :
    ((v.setWidth n).setWidth 64).toNat = v.toNat % 2 ^ n := by
  rw [BitVec.toNat_setWidth_of_le hn, BitVec.toNat_setWidth]

/-- A sign extension is the low part as a signed number. -/
theorem signExtend_low_toInt (v : Word) {n : Nat} (hn : n ≤ 64) :
    ((v.setWidth n).signExtend 64).toInt = (v.toNat : Int).bmod (2 ^ n) := by
  rw [BitVec.toInt_signExtend_of_le hn, BitVec.toInt_setWidth]

theorem extendedOperand_toNat (v : Word) (option : Extend) (k : BitVec 3) :
    (extendedOperand v option k).toNat = (extendReg v option).toNat * 2 ^ k.toNat % 2 ^ 64 := by
  rw [extendedOperand, BitVec.toNat_shiftLeft, Nat.shiftLeft_eq]

/-! ### Immediates as numbers -/

/-- An immediate shifted to a place where it fits in the word loses no bit. -/
theorem shiftLeft_toNat_of_fits {n : Nat} (imm : BitVec n) {k : Nat} (h : n + k ≤ 64) :
    ((imm.setWidth 64 : Word) <<< k).toNat = imm.toNat * 2 ^ k := by
  have hfits : imm.toNat * 2 ^ k < 2 ^ 64 :=
    calc imm.toNat * 2 ^ k < 2 ^ n * 2 ^ k := Nat.mul_lt_mul_of_pos_right imm.isLt (Nat.two_pow_pos k)
      _ = 2 ^ (n + k) := (Nat.pow_add 2 n k).symm
      _ ≤ 2 ^ 64 := Nat.pow_le_pow_right (by decide) h
  rw [BitVec.toNat_shiftLeft, BitVec.toNat_setWidth_of_le (by omega), Nat.shiftLeft_eq, Nat.mod_eq_of_lt hfits]

theorem addSubImm_toNat (sh : BitVec 1) (imm12 : BitVec 12) :
    (addSubImm sh imm12).toNat = imm12.toNat * 2 ^ (12 * sh.toNat) :=
  shiftLeft_toNat_of_fits imm12 (by omega)

theorem moveWideImm_toNat (hw : BitVec 2) (imm16 : BitVec 16) :
    (moveWideImm hw imm16).toNat = imm16.toNat * 2 ^ (16 * hw.toNat) :=
  shiftLeft_toNat_of_fits imm16 (by omega)

theorem loadStoreOffset_toInt (imm9 : BitVec 9) : (loadStoreOffset imm9).toInt = imm9.toInt :=
  BitVec.toInt_signExtend_of_le (by decide)

/-- An offset `imm:00` is four times the signed immediate. -/
theorem signExtend_append_toInt {n : Nat} (imm : BitVec n) (hpos : n ≠ 0) (hn : n + 2 ≤ 64) :
    ((imm ++ 0b00#2).signExtend 64).toInt = 4 * imm.toInt := by
  rw [BitVec.toInt_signExtend_of_le hn, BitVec.toInt_append]
  simp [hpos]

theorem branchOffset_toInt (imm26 : BitVec 26) : (branchOffset imm26).toInt = 4 * imm26.toInt :=
  signExtend_append_toInt imm26 (by decide) (by decide)

theorem condBranchOffset_toInt (imm19 : BitVec 19) : (condBranchOffset imm19).toInt = 4 * imm19.toInt :=
  signExtend_append_toInt imm19 (by decide) (by decide)

end Machine
end Sys2Proof

/-- Settles O1: the word of each well-formed instruction is read back by its own row. -/
theorem decodeInvertsEncode : Obligations.DecodeInvertsEncode := Sys2Proof.decode_encode

/-- Settles O2: the decoder accounts for every word, whichever row reads it. -/
theorem encodeInvertsDecode : Obligations.EncodeInvertsDecode := fun _ _ => Sys2Proof.encode_of_decode

/-- Settles O4: a rejection accounts for the word by R102, and each class of R102 is rejected. -/
theorem reservedWordsAreUnknown : Obligations.ReservedWordsAreUnknown := Sys2Proof.tagOfWord_unknown_iff_unknownWord

/-- Settles O5: both rows of the pattern read the word by the classification, here on numbers. -/
theorem bitfieldClassification : Obligations.BitfieldClassification := fun _ => Sys2Proof.tagOfWord_bitfield

/-- Settles O6: each shift kind and each extension has its number. -/
theorem registerOperandValues : Obligations.RegisterOperandValues := by
  refine ⟨fun v s => ?shift, fun v option k => ?extend⟩
  case shift =>
    exact ⟨Sys2Proof.Machine.shiftReg_lsl_toNat v s, Sys2Proof.Machine.shiftReg_lsr_toNat v s,
      Sys2Proof.Machine.shiftReg_asr_toInt v s, fun _ => Sys2Proof.Machine.shiftReg_ror_getLsbD v s⟩
  case extend =>
    have zeroExtended {n : Nat} := Sys2Proof.Machine.zeroExtend_low_toNat v (n := n)
    have signExtended {n : Nat} := Sys2Proof.Machine.signExtend_low_toInt v (n := n)
    exact ⟨zeroExtended (by decide), zeroExtended (by decide), zeroExtended (by decide), rfl,
      signExtended (by decide), signExtended (by decide), signExtended (by decide), rfl,
      Sys2Proof.Machine.extendedOperand_toNat v option k⟩

/-- Settles O7: each immediate has its number. -/
theorem immediateValues : Obligations.ImmediateValues :=
  ⟨Sys2Proof.Machine.addSubImm_toNat, Sys2Proof.Machine.loadStoreOffset_toInt, Sys2Proof.Machine.branchOffset_toInt,
    Sys2Proof.Machine.condBranchOffset_toInt, Sys2Proof.Machine.moveWideImm_toNat⟩
end

section
/-! SUPPORT. PROOFS of the pipeline engine family (spec/40_pipeline_engine.md), the instructions: what every instruction does
in every stage (R134 to R145), and that it always answers a next state. -/

namespace Sys2Proof.Machine

/-! ### The input of a stage -/

/-- The latch that the stage of the sequencer reads (R131); the fetch stage reads none. -/
def State.input (s : State) : Latch :=
  match s.stage with
  | .wb    => s.prev.memwb
  | .mem   => s.prev.exmem
  | .ex    => s.prev.deex
  | .de    => s.prev.ifde
  | .fetch => none

theorem inStage_of_no_input {de ex mem wb : StageFn} {s : State} (h : s.input = none) :
    inStage de ex mem wb s = .next s := by
  unfold State.input at h
  unfold inStage
  cases hp : s.stage <;> simp_all [onLatch]

/-- An instruction with no micro-op in its stage does nothing (R26). -/
theorem exec_of_no_input {i : Instr} {s : State} (h : s.input = none) : exec i s = .next s := by
  cases i <;> exact inStage_of_no_input h

/-! ### Every instruction answers a next state -/

theorem exStage_total (d : Declared) (f : MicroOp → MicroOp) (op : MicroOp) (s : State) :
    ∃ t, exStage d f op s = .next t := by
  unfold exStage raise
  split <;> exact ⟨_, rfl⟩

theorem exBranch_total (d : Declared) (cond : Bool) (target : MicroOp → Word) (taken : State → MicroOp → Bool)
    (op : MicroOp) (s : State) : ∃ t, exBranch d cond target taken op s = .next t := by
  unfold exBranch raise
  split
  · exact ⟨_, rfl⟩
  · simp only
    split <;> exact ⟨_, rfl⟩

theorem memAccess_total (w : Nat) (access : MicroOp → State → State) (op : MicroOp) (s : State) :
    ∃ t, memAccess w access op s = .next t := by
  unfold memAccess raise
  simp only
  split
  · split <;> exact ⟨_, rfl⟩
  · exact ⟨_, rfl⟩

theorem exec_memory_total {i : Instr} {s : State} {op : MicroOp} (hp : s.stage = .mem) (hl : s.prev.exmem = some op) :
    ∃ t, exec i s = .next t := by
  rw [exec_memory hp hl]
  split
  · exact ⟨_, rfl⟩
  · exact memAccess_total ..
  · exact memAccess_total ..

theorem deStage_total (t : Tag) (op : MicroOp) (s : State) : ∃ s', deStage t op s = .next s' := by
  unfold deStage
  split <;> exact ⟨_, rfl⟩

theorem deHalt_total (t : Tag) (op : MicroOp) (s : State) : ∃ s', deHalt t op s = .next s' := by
  unfold deHalt
  split <;> exact ⟨_, rfl⟩

theorem exec_execute_total {i : Instr} {s : State} {op : MicroOp} (hp : s.stage = .ex) (hl : s.prev.deex = some op) :
    ∃ t, exec i s = .next t := by
  cases hb : branchKind i with
  | none =>
    obtain ⟨f, he, _⟩ := exec_execute (i := i) hp hl hb
    exact he ▸ exStage_total ..
  | some c =>
    obtain ⟨target, taken, he⟩ := exec_execute_branch (i := i) hp hl hb
    exact he ▸ exBranch_total ..

theorem exec_decode_total {i : Instr} {s : State} {op : MicroOp} (hp : s.stage = .de) (hl : s.prev.ifde = some op) :
    ∃ t, exec i s = .next t := by
  rw [exec_decode hp hl]
  split
  · exact deHalt_total ..
  · exact deStage_total ..

/-- Every instruction in every stage answers a next state, a fault included (log entry 8). -/
theorem exec_total (i : Instr) (s : State) : ∃ t, exec i s = .next t := by
  rcases hl : s.input with _ | op
  · exact ⟨s, exec_of_no_input hl⟩
  unfold State.input at hl
  cases hp : s.stage <;> rw [hp] at hl
  case wb => exact ⟨_, exec_writeBack hp hl⟩
  case mem => exact exec_memory_total hp hl
  case ex => exact exec_execute_total hp hl
  case de => exact exec_decode_total hp hl
  case fetch => cases hl

/-- `UNKNOWN` in every stage answers a next state (R342). -/
theorem execUnknown_total (s : State) : ∃ t, execUnknown s = .next t := by
  rcases hl : s.input with _ | op
  · exact ⟨s, inStage_of_no_input hl⟩
  unfold State.input at hl
  cases hp : s.stage <;> rw [hp] at hl
  case wb => exact ⟨_, inStage_wb hp hl⟩
  case mem => exact ⟨_, inStage_mem hp hl⟩
  case ex => exact ⟨_, inStage_ex hp hl⟩
  case de =>
    rw [execUnknown, inStage_de hp hl]
    exact deStage_total ..
  case fetch => cases hl

theorem runTag_total (t : Tag) (s : State) : ∃ s', runTag t s = .next s' := by
  cases t with
  | instr i => exact exec_total i s
  | unknown => exact execUnknown_total s

/-! ### Every cycle answers a next state -/

theorem andThen_total {o : Out} {k : State → Out} (ho : ∃ m, o = .next m) (hk : ∀ m, ∃ t, k m = .next t) :
    ∃ t, andThen o k = .next t := by
  obtain ⟨m, rfl⟩ := ho
  rw [andThen]
  split
  · exact ⟨m, rfl⟩
  · exact hk m

theorem memoryStage_total (s : State) : ∃ m, memoryStage s = .next m := by
  unfold memoryStage
  split
  · exact ⟨_, rfl⟩
  · exact runTag_total ..

theorem executeStage_total (s : State) : ∃ m, executeStage s = .next m := by
  unfold executeStage
  split
  · exact ⟨_, rfl⟩
  · exact runTag_total ..

theorem decodeStage_total (s : State) : ∃ m, decodeStage s = .next m := by
  unfold decodeStage raise
  split
  · exact ⟨_, rfl⟩
  · split
    · exact ⟨_, rfl⟩
    · exact runTag_total ..

theorem freezeMux_total (s : State) : ∃ m, freezeMux s = .next m := by
  unfold freezeMux raise
  split <;> exact ⟨_, rfl⟩

theorem afterDecode_total (s : State) : ∃ t, afterDecode s = .next t := by
  unfold afterDecode
  split <;> exact ⟨_, rfl⟩

theorem afterExecute_total (s : State) : ∃ t, afterExecute s = .next t := by
  unfold afterExecute
  split
  · exact ⟨_, rfl⟩
  · exact andThen_total (decodeStage_total s) afterDecode_total

theorem afterMemory_total (s : State) : ∃ t, afterMemory s = .next t := by
  unfold afterMemory
  split
  · exact andThen_total (freezeMux_total s) fun _ => ⟨_, rfl⟩
  · exact andThen_total (executeStage_total s) afterExecute_total

theorem runStages_total (s : State) : ∃ t, runStages s = .next t :=
  andThen_total (writeBackStage_total _) fun _ => andThen_total (memoryStage_total _) afterMemory_total

/-- Every cycle of every state answers a next state (log entry 8). -/
theorem step_total (s : State) : ∃ t, step s = .next t := by
  cases hst : s.stopped with
  | true => exact ⟨s, step_of_stopped hst⟩
  | false =>
    obtain ⟨m, hm⟩ := runStages_total s
    rw [step_of_running hst, hm, settle]
    split <;> exact ⟨_, rfl⟩

/-! ### Decode of every instruction -/

/-- Decode without a load-use hazard passes the decoded micro-op, and `HLT` sets `HALT` (R143, R144). -/
theorem exec_decode_of_noLoadUse {i : Instr} {s : State} {op : MicroOp} (hp : s.stage = .de) (hl : s.prev.ifde = some op)
    (hu : loadUse (declared i) s.prev.deex = false) :
    exec i s = .next { s with
      halt := s.halt || isHalt i
      cur := { s.cur with deex := some (decodedOp (.instr i) s op) } } := by
  rw [exec_decode hp hl]
  cases hh : isHalt i with
  | false => rw [Bool.or_false]; exact deStage_of_noLoadUse (t := .instr i) hu
  | true => rw [Bool.or_true]; exact deHalt_of_noLoadUse (t := .instr i) hu

/-- Decode with a load-use hazard demands a stall and does nothing else (R145). -/
theorem exec_decode_of_loadUse {i : Instr} {s : State} {op : MicroOp} (hp : s.stage = .de) (hl : s.prev.ifde = some op)
    (hu : loadUse (declared i) s.prev.deex = true) : exec i s = .next s.raiseLoadStall := by
  have hu' : loadUse (Tag.instr i).declared s.prev.deex = true := hu
  rw [exec_decode hp hl]
  split
  · simp [deHalt, hu']
  · simp [deStage, hu']

/-! ### The frame of every instruction, stage by stage -/

/-- What the memory stage of an instruction changes: the memory by a store's bytes, the data cache by an access, MEM→WB,
the stall signals and the fault record. -/
theorem exec_memory_frame {i : Instr} {s t : State} {op : MicroOp} (hp : s.stage = .mem) (hl : s.prev.exmem = some op)
    (h : exec i s = .next t) :
    ∃ mem dc cur ctl fault, t = { s with mem := mem, dc := dc, cur := cur, ctl := ctl, fault := fault } ∧
      (memKind i = .none → dc = s.dc) ∧
      (mem = s.mem ∨ ∃ w, memKind i = .store w ∧ mem = memWrite s.mem op.memAddr op.memVal w) := by
  rw [exec_memory hp hl] at h
  split at h
  · cases h
    exact ⟨_, _, _, _, _, rfl, fun _ => rfl, .inl rfl⟩
  · rename_i w hk
    rcases memAccess_next h with ⟨_, rfl⟩ | ⟨_, _, rfl⟩ | ⟨_, _, rfl⟩ <;>
      exact ⟨_, _, _, _, _, rfl, by simp [hk], .inl rfl⟩
  · rename_i w hk
    rcases memAccess_next h with ⟨_, rfl⟩ | ⟨_, _, rfl⟩ | ⟨_, _, rfl⟩
    · exact ⟨_, _, _, _, _, rfl, by simp [hk], .inl rfl⟩
    · exact ⟨_, _, _, _, _, rfl, by simp [hk], .inl rfl⟩
    · exact ⟨_, _, _, _, _, rfl, by simp [hk], .inr ⟨w, hk, rfl⟩⟩

/-- What execute of an instruction changes: EX→MEM, the report of a branch and the fault record. -/
theorem exec_execute_frame {i : Instr} {s t : State} {op : MicroOp} (hp : s.stage = .ex) (hl : s.prev.deex = some op)
    (h : exec i s = .next t) : ∃ cur ctl fault, t = { s with cur := cur, ctl := ctl, fault := fault } := by
  cases hb : branchKind i with
  | none =>
    obtain ⟨f, he, _⟩ := exec_execute (i := i) hp hl hb
    rcases exStage_next (he ▸ h) with ⟨_, rfl⟩ | ⟨_, _, rfl⟩ <;> exact ⟨_, _, _, rfl⟩
  | some c =>
    obtain ⟨target, taken, he⟩ := exec_execute_branch (i := i) hp hl hb
    rcases exBranch_next (he ▸ h) with ⟨_, rfl⟩ | ⟨_, _, _, _, _, rfl⟩ <;> exact ⟨_, _, _, rfl⟩

/-- What decode of an instruction changes: DE→EX or the stall signal, and `HALT` where it is a `HLT`. -/
theorem exec_decode_frame {i : Instr} {s t : State} {op : MicroOp} (hp : s.stage = .de) (hl : s.prev.ifde = some op)
    (h : exec i s = .next t) :
    ∃ halt cur ctl, t = { s with halt := halt, cur := cur, ctl := ctl } ∧ (isHalt i = false → halt = s.halt) := by
  cases hu : loadUse (declared i) s.prev.deex with
  | true =>
    rw [exec_decode_of_loadUse hp hl hu] at h
    cases h
    exact ⟨_, _, _, rfl, fun _ => rfl⟩
  | false =>
    rw [exec_decode_of_noLoadUse hp hl hu] at h
    cases h
    exact ⟨_, _, _, rfl, fun hh => by rw [hh, Bool.or_false]⟩

/-- What an instruction changes outside write-back: `HALT` by a `HLT` in decode, the data cache by an access and the memory
by a store's bytes in the memory stage, the latch it writes, the signals and the fault record. -/
theorem exec_frame_of_not_writeBack {i : Instr} {s t : State} (hp : s.stage ≠ .wb) (h : exec i s = .next t) :
    ∃ halt mem dc cur ctl fault,
      t = { s with halt := halt, mem := mem, dc := dc, cur := cur, ctl := ctl, fault := fault } ∧
        (¬ (s.stage = .de ∧ isHalt i = true) → halt = s.halt) ∧
        (¬ (s.stage = .mem ∧ memKind i ≠ .none) → dc = s.dc) ∧
        (mem = s.mem ∨ ∃ op w, s.stage = .mem ∧ s.prev.exmem = some op ∧ memKind i = .store w ∧
          mem = memWrite s.mem op.memAddr op.memVal w) := by
  rcases hl : s.input with _ | op
  · rw [exec_of_no_input hl] at h
    cases h
    exact ⟨_, _, _, _, _, _, rfl, fun _ => rfl, fun _ => rfl, .inl rfl⟩
  unfold State.input at hl
  obtain ⟨p, hs⟩ : ∃ p, s.stage = p := ⟨_, rfl⟩
  rw [hs] at hl
  cases p
  case wb => exact absurd hs hp
  case mem =>
    obtain ⟨mem, dc, cur, ctl, fault, rfl, hdc, hmem⟩ := exec_memory_frame hs hl h
    exact ⟨_, mem, dc, cur, ctl, fault, rfl, fun _ => rfl, fun hk => hdc (by simpa [hs] using hk),
      hmem.imp_right fun ⟨w, hk, hm⟩ => ⟨op, w, hs, hl, hk, hm⟩⟩
  case ex =>
    obtain ⟨cur, ctl, fault, rfl⟩ := exec_execute_frame hs hl h
    exact ⟨_, _, _, cur, ctl, fault, rfl, fun _ => rfl, fun _ => rfl, .inl rfl⟩
  case de =>
    obtain ⟨halt, cur, ctl, rfl, hhalt⟩ := exec_decode_frame hs hl h
    exact ⟨halt, _, _, cur, ctl, _, rfl, fun hh => hhalt (by simpa [hs] using hh), fun _ => rfl, .inl rfl⟩
  case fetch => cases hl

/-- What an instruction does in write-back: nothing without a micro-op, and the commit of its declared fields with one. -/
theorem exec_next_of_writeBack {i : Instr} {s t : State} (hp : s.stage = .wb) (h : exec i s = .next t) :
    t = s ∨ ∃ op, t = commit (declared i) (isHalt i) op s := by
  rcases hl : s.prev.memwb with _ | op
  · rw [exec_of_no_input (by simp [State.input, hp, hl])] at h
    cases h
    exact .inl rfl
  · rw [exec_writeBack hp hl] at h
    cases h
    exact .inr ⟨op, rfl⟩

theorem commit_reg_of_not_dst {d : Declared} {halt : Bool} {op : MicroOp} {s : State} {r : Reg} (h : d.dst ≠ some r) :
    (commit d halt op s).reg r = s.reg r := by
  rw [commit_reg, if_neg fun hw => h hw.2.1]

/-- A commit changes the flags of a flag-setting instruction only, and stops the machine for `HLT` only. -/
theorem commit_flags_runStop (d : Declared) (halt : Bool) (op : MicroOp) (s : State) :
    (d.flags = false → (commit d halt op s).z = s.z ∧ (commit d halt op s).n = s.n) ∧
      (halt = false → (commit d halt op s).runStop = s.runStop) := by
  rw [commit_eq]
  exact ⟨fun hf => by simp [hf], fun hh => by simp [hh]⟩

theorem commit_stage (d : Declared) (halt : Bool) (op : MicroOp) (s : State) :
    (commit d halt op s).stage = s.stage := by
  rw [commit_eq]

/-- The access width of every store is small, so its bytes do not wrap around. -/
theorem store_width_lt {i : Instr} {w : Nat} (h : memKind i = .store w) : w < 2 ^ 64 := by
  cases i with
  | sturX | sturW | sturh | sturb => cases h; decide
  | _ => cases h

end Sys2Proof.Machine

open Sys2Proof.Machine

/-- Settles O15: `exec` by its stage, and the cycle by its parts. -/
theorem everyStepAnswersNext : Obligations.EveryStepAnswersNext :=
  ⟨step_total, exec_total⟩

/-- Settles O17, by the load-use hazard. -/
theorem decodeStageOfEveryInstruction : Obligations.DecodeStageOfEveryInstruction := by
  intro i s op hp hl
  refine ⟨fun hu => ⟨_, exec_decode_of_noLoadUse hp hl hu, rfl, rfl, rfl, rfl, rfl, rfl, ?_, ?_, ?_⟩,
    fun hu => exec_decode_of_loadUse hp hl hu⟩ <;> intro r hr <;>
    simp [decodedOp, Tag.declared, readSource, hr]

/-- Settles O29: write-back commits the declared fields, and no other stage changes the architecture but the memory. -/
theorem instructionFrame : Obligations.InstructionFrame := by
  intro i s t h
  by_cases hp : s.stage = .wb
  · rcases exec_next_of_writeBack hp h with rfl | ⟨op, rfl⟩
    · exact ⟨fun _ _ => rfl, fun _ => ⟨rfl, rfl⟩, fun _ => rfl, fun _ => rfl, fun _ => rfl, fun _ => rfl, rfl, rfl, rfl, rfl,
        rfl, rfl, rfl, rfl, fun _ _ => rfl⟩
    · obtain ⟨k, hmem, hdc, _, _, hhalt, _⟩ := commit_keeps (declared i) (isHalt i) op s
      obtain ⟨hflags, hrun⟩ := commit_flags_runStop (declared i) (isHalt i) op s
      exact ⟨fun r hr => commit_reg_of_not_dst fun e => hr ⟨hp, e⟩, fun hf => hflags (by simpa [hp] using hf),
        fun hh => hrun (by simpa [hp] using hh), fun _ => hhalt, fun _ => hdc, fun hw => absurd hp hw, k.pc, k.bp, k.ic,
        k.cfg, k.prev, commit_stage .., k.cycles, k.squashes, fun b _ => by rw [hmem]⟩
  · obtain ⟨halt, mem, dc, cur, ctl, fault, rfl, hhalt, hdc, hmem⟩ := exec_frame_of_not_writeBack hp h
    refine ⟨fun _ _ => rfl, fun _ => ⟨rfl, rfl⟩, fun _ => rfl, hhalt, hdc, fun _ => rfl, rfl, rfl, rfl, rfl, rfl, rfl, rfl,
      rfl, fun b hb => ?_⟩
    rcases hmem with rfl | ⟨op, w, hs, hl, hk, rfl⟩
    · rfl
    · exact (readByte_memWrite _ _ _ _ (store_width_lt hk)).trans (if_neg (hb op w hs hl hk))
end

section
/-! SUPPORT. PROOFS of the pipeline engine family (spec/40_pipeline_engine.md), the cycle: what a cycle commits, stores and
trains (R134 to R142), its freeze and stall (R137, R139, R145), and the two invariants behind R153 and
spec/41_hazards_forwarding.md R192. -/

namespace Sys2Proof.Machine

/-! ### The ends of a cycle are reached -/

/-- The converse of `step_cases`: a cycle whose stages lead to one of the four ends takes it (R131). -/
theorem CycleEnd.step_eq {s t : State} (hr : s.running = true) (ht : t.fault = none) (h : CycleEnd s t) :
    step s = .next t := by
  have hstages (m1 m2 : State) (hwb : writeBackStage s.atCycleStart = .next m1) (h1 : m1.fault = none)
      (hmem : memoryStage m1 = .next m2) (h2 : m2.fault = none) : runStages s = afterMemory m2 := by
    show andThen (writeBackStage s.atCycleStart) afterWriteBack = _
    rw [hwb, andThen_ok h1, afterWriteBack, hmem, andThen_ok h2]
  have hrun : runStages s = .next t := by
    cases h with
    | freeze m1 m2 l hwb h1 hmem h2 hs hl e =>
      subst e
      rw [hstages m1 m2 hwb h1 hmem h2, afterMemory, if_pos hs, freezeMux, hl]
      exact andThen_ok (m := (((m2.putExmem m2.prev.exmem).putDeex l).putIfde m2.prev.ifde).setNextPc m2.pc) h2
    | squash m1 m2 m3 hwb h1 hmem h2 hs hex h3 hc e =>
      subst e
      rw [hstages m1 m2 hwb h1 hmem h2, afterMemory, if_neg (by simp [hs]), hex, andThen_ok h3, afterExecute, if_pos hc]
    | stall m1 m2 m3 m4 hwb h1 hmem h2 hs hex h3 hc hde h4 hls e =>
      subst e
      rw [hstages m1 m2 hwb h1 hmem h2, afterMemory, if_neg (by simp [hs]), hex, andThen_ok h3, afterExecute,
        if_neg (by simp [hc]), frontEnd, hde, andThen_ok h4, afterDecode, if_pos hls]
    | fetch m1 m2 m3 m4 hwb h1 hmem h2 hs hex h3 hc hde h4 hls e =>
      subst e
      rw [hstages m1 m2 hwb h1 hmem h2, afterMemory, if_neg (by simp [hs]), hex, andThen_ok h3, afterExecute,
        if_neg (by simp [hc]), frontEnd, hde, andThen_ok h4, afterDecode, if_neg (by simp [hls])]
  rw [step_of_running (by simpa [State.running] using hr), hrun]
  simp [settle, ht]

/-- A cycle that starts on a running machine and ends with no fault record has reached one of the four ends. -/
theorem step_ends {s t : State} (hr : s.running = true) (h : step s = .next t) (hf : t.fault = none) : CycleEnd s t := by
  rcases step_cases hr h with ⟨f, rfl⟩ | ⟨_, hend⟩
  · cases hf
  · exact hend

theorem runStop_of_running {s : State} (hr : s.running = true) : s.runStop = false := by
  simp only [State.running, State.stopped, Bool.not_eq_true', Bool.or_eq_false_iff] at hr
  exact hr.1

/-! ### A stage whose latch is a bubble (R26) -/

theorem writeBackStage_of_bubble {s : State} (hl : s.prev.memwb = none) : writeBackStage s = .next (s.atStage .wb) := by
  simp only [writeBackStage, hl]

theorem memoryStage_of_bubble {s : State} (hl : s.prev.exmem = none) :
    memoryStage s = .next ((s.atStage .mem).putMemwb none) := by
  simp only [memoryStage, hl]

theorem executeStage_of_bubble {s : State} (hl : s.prev.deex = none) :
    executeStage s = .next ((s.atStage .ex).putExmem none) := by
  simp only [executeStage, hl]

theorem decodeStage_of_bubble {s : State} (hl : s.prev.ifde = none) :
    decodeStage s = .next ((s.atStage .de).putDeex none) := by
  simp only [decodeStage, hl]

/-! ### The stages of an occupied latch, by the tag (R131) -/

theorem writeBackStage_of_tag {s : State} {op : MicroOp} (hl : s.prev.memwb = some op) :
    writeBackStage s = runTag op.tag (s.atStage .wb) := by
  simp only [writeBackStage, hl]

theorem memoryStage_of_tag {s : State} {op : MicroOp} (hl : s.prev.exmem = some op) :
    memoryStage s = runTag op.tag (s.atStage .mem) := by
  simp only [memoryStage, hl]

theorem decodeStage_of_word {s : State} {op : MicroOp} (hl : s.prev.ifde = some op) (hf : op.fetchFault = false) :
    decodeStage s = runTag (tagOfWord op.word) (s.atStage .de) := by
  simp only [decodeStage, hl, hf]
  rfl

theorem tagOfWord_of_decode {w : InstWord} {i : Instr} (h : decode w = .instr i) : tagOfWord w = .instr i := by
  simp only [tagOfWord, h]

theorem tagOfWord_of_not_decode {w : InstWord} (h : ∀ i, decode w ≠ .instr i) : tagOfWord w = .unknown := by
  rw [Sys2Proof.tagOfWord_unknown_iff]
  cases hd : decode w with
  | instr i => exact absurd hd (h i)
  | rejected why => exact ⟨why, rfl⟩

theorem afterMemory_of_noStall {s : State} (h : s.ctl.memStall = false) :
    afterMemory s = andThen (executeStage s) afterExecute := by
  simp [afterMemory, h]

theorem afterExecute_of_noSquash {s : State} (h : s.ctl.clearDecode = false) :
    afterExecute s = andThen (decodeStage s) afterDecode := by
  simp [afterExecute, h, frontEnd]

/-- The word at an aligned address is made of the four bytes from it on (R62, R90). -/
theorem decode_read32_of_aligned {m : Memory} {a : Word} (h : a.toNat % 4 = 0) :
    decode (read32 m a) =
      decodeBytes [readByte m a, readByte m (a + 1#64), readByte m (a + 2#64), readByte m (a + 3#64)] := by
  have ha : wordAddr a = a := by
    have hlane := wordAddr_add_lane a
    rwa [h, BitVec.add_zero] at hlane
  simp only [read32, ha]
  rfl

/-! ### Write-back -/

/-- Where MEM→WB writes a register, what decode or a latch held of it does not matter. -/
theorem fwdFromMemwb_of_writesReg {l : Latch} {r : Reg} (h : writesReg l r = true) (v w : Word) :
    fwdFromMemwb l r v = fwdFromMemwb l r w := by
  cases l with
  | none => cases h
  | some b => simp [fwdFromMemwb, h]

/-- A commit writes to a register what the micro-op supplies to the network (R134, R188). -/
theorem commit_reg_eq_supplied (halt : Bool) (op : MicroOp) (s : State) (r : Reg) :
    (commit op.tag.declared halt op s).reg r =
      if writesReg (some op) r = true ∧ r ≠ zeroReg then supplied op else s.reg r := by
  rw [commit_reg]
  cases hw : op.tag.declared.writes <;> simp [writesReg, supplied, hw]

/-- The registers after write-back (R134). -/
theorem writeBackStage_reg {s m : State} (h : writeBackStage s = .next m) {r : Reg} (hz : r ≠ zeroReg) :
    m.reg r = fwdFromMemwb s.prev.memwb r (s.reg r) := by
  rcases writeBackStage_next h with ⟨hl, rfl⟩ | ⟨op, hl, rfl⟩ <;> rw [hl]
  · rfl
  · rw [commit_reg_eq_supplied]
    simp [fwdFromMemwb, hz]

theorem Tag.halts_iff (t : Tag) : t.halts = true ↔ ∃ imm16, t = .instr (.hlt imm16) := by
  cases t with
  | unknown => simp [Tag.halts]
  | instr i => cases i <;> simp [Tag.halts, isHalt]

/-! ### The memory stage, by the outcome that the statements speak of -/

/-- The outcome for a load or a store is that of its access. -/
theorem memoryOutcome_of_access {s : State} {op : MicroOp} {i : Instr} {w : Nat} (hl : s.prev.exmem = some op)
    (ht : op.tag = .instr i) (hk : memKind i = .load w ∨ memKind i = .store w) :
    s.memoryOutcome = s.accessOutcome op.memAddr w := by
  rcases hk with hk | hk <;> simp [State.memoryOutcome, hl, ht, hk]

/-- Where the memory stage does not pass, EX→MEM holds a load or a store. -/
theorem access_of_memoryOutcome {s : State} (h : s.memoryOutcome ≠ .done) :
    ∃ op i w, s.prev.exmem = some op ∧ op.tag = .instr i ∧ (memKind i = .load w ∨ memKind i = .store w) := by
  unfold State.memoryOutcome at h
  split at h
  · exact absurd rfl h
  · rename_i op hl
    split at h
    · exact absurd rfl h
    · rename_i i ht
      split at h
      · exact absurd rfl h
      · rename_i w hk; exact ⟨op, i, w, hl, ht, .inl hk⟩
      · rename_i w hk; exact ⟨op, i, w, hl, ht, .inr hk⟩

/-- The memory stage of a load or a store is one memory access (R136). -/
theorem memoryStage_of_access {s : State} {op : MicroOp} {i : Instr} {w : Nat} (hl : s.prev.exmem = some op)
    (ht : op.tag = .instr i) (hk : memKind i = .load w ∨ memKind i = .store w) :
    ∃ access, memoryStage s = memAccess w access op (s.atStage .mem) := by
  rw [memoryStage_of_tag hl, ht, runTag, exec_memory (s := s.atStage .mem) rfl hl]
  rcases hk with hk | hk <;> rw [hk] <;> exact ⟨_, rfl⟩

/-- What the memory stage of the cycle answers, by the outcome of the cycle (R135 to R137): it passes, it waits with a
bubble behind it, or it faults. -/
theorem memoryStage_outcome {s m m' : State} (hprev : m.prev = s.prev) (hcfg : m.cfg = s.cfg)
    (hdc : m.dc = tickFill s.cfg.dc s.dc) (h : memoryStage m = .next m') :
    (s.memoryOutcome = .done ∧ m'.fault = m.fault ∧ m'.ctl = m.ctl) ∨
      (s.memoryOutcome = .waits ∧ ∃ c, m' = (((m.atStage .mem).setDc c).putMemwb none).raiseMemStall) ∨
      (s.memoryOutcome = .faults ∧ m' = { m.atStage .mem with fault := some .dataNotAdmitted }) := by
  by_cases hd : s.memoryOutcome = .done
  · obtain ⟨m'', hm, hf, hc⟩ := memoryStage_of_done hd hprev hcfg hdc
    rw [hm] at h
    cases h
    exact .inl ⟨hd, hf, hc⟩
  obtain ⟨op, i, w, hl, ht, hk⟩ := access_of_memoryOutcome hd
  obtain ⟨access, hm⟩ := memoryStage_of_access (s := m) (by rw [hprev, hl]) ht hk
  rw [hm] at h
  rw [memoryOutcome_of_access hl ht hk, State.accessOutcome] at hd ⊢
  rcases memAccess_next h with ⟨ha, rfl⟩ | ⟨ha, hc, rfl⟩ | ⟨ha, hc, rfl⟩
  · rw [State.atStage_cfg, hcfg] at ha
    exact .inr (.inr ⟨by simp [ha], rfl⟩)
  · simp only [State.atStage_cfg, State.atStage_dc, hcfg, hdc] at ha hc
    exact .inr (.inl ⟨by simp [ha, hc], _, rfl⟩)
  · simp only [State.atStage_cfg, State.atStage_dc, hcfg, hdc] at ha hc
    simp [ha, hc] at hd

/-- The state of the cycle after a memory stage without a fault: what it keeps of the start of the cycle, and the stall
signals by the outcome. -/
theorem memoryStage_signals {s m1 m2 : State} (hwb : writeBackStage s.atCycleStart = .next m1)
    (hmem : memoryStage m1 = .next m2) (h2 : m2.fault = none) :
    Keeps s.atCycleStart m2 ∧ m2.halt = s.halt ∧
      ((s.memoryOutcome = .done ∧ m2.ctl = Control.cleared) ∨
        (s.memoryOutcome = .waits ∧ m2.mem = s.mem ∧ m2.cur.memwb = none ∧
          m2.ctl = { Control.cleared with memStall := true, updateExecuteWithSavedOp := true })) := by
  obtain ⟨k1, hm1, hdc, _, hctl, hhalt, _⟩ := writeBackStage_frame hwb
  obtain ⟨k2, _, hhalt2, _⟩ := memoryStage_frame hmem h2
  refine ⟨k1.trans k2, hhalt2.trans hhalt, ?_⟩
  rcases memoryStage_outcome (s := s) k1.prev k1.cfg hdc hmem with ⟨hd, _, e⟩ | ⟨hw, c, rfl⟩ | ⟨_, rfl⟩
  · exact .inl ⟨hd, e.trans hctl⟩
  · refine .inr ⟨hw, hm1, rfl, ?_⟩
    show { m1.ctl with memStall := true, updateExecuteWithSavedOp := true } = _
    rw [hctl]
    rfl
  · cases h2

/-- What the memory stage writes to memory where it passes: a store's bytes, and nothing for any other micro-op (R136). -/
theorem memoryStage_mem_of_store {m m' : State} {op : MicroOp} {i : Instr} {w : Nat} (hl : m.prev.exmem = some op)
    (ht : op.tag = .instr i) (hk : memKind i = .store w) (h : memoryStage m = .next m') (hf : m'.fault = none)
    (hs : m'.ctl.memStall = false) : m'.mem = memWrite m.mem op.memAddr op.memVal w := by
  rw [memoryStage_of_tag hl, ht, runTag, exec_memory (s := m.atStage .mem) rfl hl, hk] at h
  rcases memAccess_next h with ⟨_, rfl⟩ | ⟨_, _, rfl⟩ | ⟨_, _, rfl⟩
  · cases hf
  · cases hs
  · rfl

/-- The memory stage writes nothing unless it completes a store. -/
theorem memoryStage_mem_of_no_store {m m' : State} (h : memoryStage m = .next m') (hf : m'.fault = none)
    (hn : ∀ op i w, m.prev.exmem = some op → op.tag = .instr i → memKind i ≠ .store w) : m'.mem = m.mem := by
  rcases memoryStage_next h hf with ⟨_, rfl⟩ | ⟨op, hl, rfl | ⟨c, rfl⟩ | ⟨c, w, rfl⟩ | ⟨c, w, i, ht, hk, _, rfl⟩⟩
  · rfl
  · rfl
  · rfl
  · rfl
  · exact absurd hk (hn op i w hl ht)

/-! ### What the rest of a cycle keeps of the memory stage -/

/-- The part of the state that no stage after the memory stage changes, but for the cycle count. -/
structure KeepsCommitted (m t : State) : Prop where
  arch : KeepsArchitecture m t
  mem : t.mem = m.mem
  cfg : t.cfg = m.cfg
  cycles : t.cycles = m.cycles + 1#64

theorem keepsCommitted_endOfCycle {m m' : State} (ha : KeepsArchitecture m m') (hm : m'.mem = m.mem) (hc : m'.cfg = m.cfg)
    (hn : m'.cycles = m.cycles) : KeepsCommitted m (endOfCycle m') :=
  ⟨ha.trans ⟨rfl, rfl, rfl, rfl, rfl⟩, hm, hc, congrArg (· + 1#64) hn⟩

/-- Every cycle without a fault commits in write-back, accesses memory in the memory stage, and keeps the result of both to
its end (R131, R149). -/
theorem CycleEnd.committed {s t : State} (h : CycleEnd s t) :
    ∃ m1 m2, writeBackStage s.atCycleStart = .next m1 ∧ memoryStage m1 = .next m2 ∧ m2.fault = none ∧
      KeepsCommitted m2 t := by
  cases h with
  | freeze m1 m2 l hwb _ hmem h2 _ _ ht =>
    subst ht
    exact ⟨m1, m2, hwb, hmem, h2, keepsCommitted_endOfCycle ⟨rfl, rfl, rfl, rfl, rfl⟩ rfl rfl rfl⟩
  | squash m1 m2 m3 hwb _ hmem h2 _ hex h3 _ ht =>
    subst ht
    obtain ⟨k3, a3, hm3, _⟩ := executeStage_frame hex h3
    obtain ⟨a, hc, _, hm, _, _, hn, _⟩ := squashMux_frame m3
    exact ⟨m1, m2, hwb, hmem, h2,
      keepsCommitted_endOfCycle (a3.trans a) (hm.trans hm3) (hc.trans k3.cfg) (hn.trans k3.cycles)⟩
  | stall m1 m2 m3 m4 hwb _ hmem h2 _ hex h3 _ hde h4 _ ht =>
    subst ht
    obtain ⟨k3, a3, hm3, _⟩ := executeStage_frame hex h3
    obtain ⟨k4, a4, hm4, _⟩ := decodeStage_frame hde h4
    have k := k3.trans k4
    exact ⟨m1, m2, hwb, hmem, h2,
      keepsCommitted_endOfCycle ((a3.trans a4).trans ⟨rfl, rfl, rfl, rfl, rfl⟩) (hm4.trans hm3) k.cfg k.cycles⟩
  | fetch m1 m2 m3 m4 hwb _ hmem h2 _ hex h3 _ hde h4 _ ht =>
    subst ht
    obtain ⟨k3, a3, hm3, _⟩ := executeStage_frame hex h3
    obtain ⟨k4, a4, hm4, _⟩ := decodeStage_frame hde h4
    obtain ⟨a, hc, _, _, _, hm, _, _, hn, _⟩ := fetchStage_frame m4
    have k := k3.trans k4
    exact ⟨m1, m2, hwb, hmem, h2, keepsCommitted_endOfCycle ((a3.trans a4).trans a) (hm.trans (hm4.trans hm3))
      (hc.trans k.cfg) (hn.trans k.cycles)⟩

/-- The architecture at the end of a cycle is that after its write-back (R134). -/
theorem CycleEnd.committed_writeBack {s t : State} (h : CycleEnd s t) :
    ∃ m1, writeBackStage s.atCycleStart = .next m1 ∧ KeepsArchitecture m1 t ∧ t.cfg = s.cfg ∧
      t.cycles = s.cycles + 1#64 := by
  obtain ⟨m1, m2, hwb, hmem, h2, k⟩ := h.committed
  obtain ⟨_, a2, _⟩ := memoryStage_frame hmem h2
  obtain ⟨k2, _⟩ := memoryStage_signals hwb hmem h2
  exact ⟨m1, hwb, a2.trans k.arch, k.cfg.trans k2.cfg, k.cycles.trans (congrArg (· + 1#64) k2.cycles)⟩

/-- The flags that a branch reads in execute (R190), after the memory stage. -/
theorem branchFlags_after_memory {s m1 m2 : State} (hwb : writeBackStage s.atCycleStart = .next m1)
    (hmem : memoryStage m1 = .next m2) (h2 : m2.fault = none) : (branchZ m2, branchN m2) = s.committedFlags := by
  obtain ⟨k, a, _⟩ := memoryStage_frame hmem h2
  have hz : branchZ m2 = branchZ m1 := by simp only [branchZ, k.prev, a.z]
  have hn : branchN m2 = branchN m1 := by simp only [branchN, k.prev, a.n]
  rw [hz, hn]
  exact branchFlags_of_writeBack (s := s.atCycleStart) hwb

/-! ### Execute without a branch -/

theorem branchInExecute_of_branch {s : State} {op : MicroOp} {i : Instr} {c : Bool} (hl : s.prev.deex = some op)
    (ht : op.tag = .instr i) (hb : branchKind i = some c) : s.branchInExecute = some (op, c) := by
  simp [State.branchInExecute, hl, ht, hb]

/-- Execute of no branch raises no signal (R140, R221). -/
theorem executeStage_ctl_of_no_branch {s m : State} (hb : s.branchInExecute = none) (h : executeStage s = .next m)
    (hf : m.fault = none) : m.ctl = s.ctl := by
  rcases executeStage_next h hf with ⟨_, rfl⟩ | ⟨_, _, _, _, _, _, _, rfl⟩ |
    ⟨op, _, _, i, c, hl, ht, hk, _, _, _, _, _, _, rfl⟩
  · rfl
  · rfl
  · rw [branchInExecute_of_branch hl ht hk] at hb
    cases hb

theorem executePasses_of_no_branch {s : State} (hb : s.branchInExecute = none) : s.executePasses = true := by
  have hr : s.resolvedInExecute = none := by
    unfold State.branchInExecute at hb
    unfold State.resolvedInExecute
    split at hb
    · simp_all
    · split at hb <;> simp_all
  simp [State.executePasses, hr]

/-- In a cycle that reaches execute only a branch in execute could have raised a signal by then. -/
theorem executeStage_cleared_of_no_branch {s m1 m2 m3 : State} (hn : s.memoryOutcome ≠ .done ∨ s.branchInExecute = none)
    (hwb : writeBackStage s.atCycleStart = .next m1) (hmem : memoryStage m1 = .next m2) (h2 : m2.fault = none)
    (hs : m2.ctl.memStall = false) (hex : executeStage m2 = .next m3) (h3 : m3.fault = none) :
    m3.ctl = Control.cleared ∧ Keeps s.atCycleStart m3 := by
  obtain ⟨k2, _, ⟨hd, hctl⟩ | ⟨_, _, _, hctl⟩⟩ := memoryStage_signals hwb hmem h2
  · have hprev : m2.prev = s.prev := k2.prev
    have hb : m2.branchInExecute = none := by
      simpa only [State.branchInExecute, hprev] using hn.resolve_left (absurd hd)
    exact ⟨(executeStage_ctl_of_no_branch hb hex h3).trans hctl, k2.trans (executeStage_frame hex h3).1⟩
  · rw [hctl] at hs
    cases hs

/-- A cycle that freezes or has no branch in execute trains no predictor and squashes nothing (R221, R225). -/
theorem CycleEnd.untrained {s t : State} (h : CycleEnd s t) (hn : s.memoryOutcome ≠ .done ∨ s.branchInExecute = none) :
    t.bp = s.bp ∧ t.squashes = s.squashes := by
  cases h with
  | freeze m1 m2 l hwb _ hmem h2 hs _ ht =>
    subst ht
    obtain ⟨k2, hupd⟩ := memoryStage_keeps_start hwb hmem h2
    exact ⟨(endOfCycle_bp_none _ hupd).trans k2.bp, k2.squashes⟩
  | squash m1 m2 m3 hwb _ hmem h2 hs hex h3 hc ht =>
    obtain ⟨hcleared, _⟩ := executeStage_cleared_of_no_branch hn hwb hmem h2 hs hex h3
    rw [hcleared] at hc
    cases hc
  | stall m1 m2 m3 m4 hwb _ hmem h2 hs hex h3 _ hde h4 _ ht =>
    subst ht
    obtain ⟨hcleared, k⟩ := executeStage_cleared_of_no_branch hn hwb hmem h2 hs hex h3
    obtain ⟨k4, _, _, _, _, hctl, _⟩ := decodeStage_frame hde h4
    have hupd : m4.ctl.upd = none := by rw [hctl, hcleared]; rfl
    exact ⟨(endOfCycle_bp_none (stallMux m4) hupd).trans (k.trans k4).bp, (k.trans k4).squashes⟩
  | fetch m1 m2 m3 m4 hwb _ hmem h2 hs hex h3 _ hde h4 _ ht =>
    subst ht
    obtain ⟨hcleared, k⟩ := executeStage_cleared_of_no_branch hn hwb hmem h2 hs hex h3
    obtain ⟨k4, _, _, _, _, hctl, _⟩ := decodeStage_frame hde h4
    obtain ⟨_, _, _, _, hbp, _, _, _, _, hsq, _, _, hctl'⟩ := fetchStage_frame m4
    exact ⟨(endOfCycle_bp_none _ (by rw [hctl', hctl, hcleared]; rfl)).trans (hbp.trans (k.trans k4).bp),
      hsq.trans (k.trans k4).squashes⟩

/-! ### The freeze (R137, R139, R191) -/

/-- The refresh of a freeze forwards to every declared source, where no load is ahead of it (R191). -/
theorem refresh_of_noLoadAhead {s : State} (hn : s.noLoadAhead = true) :
    refresh s.prev s.prev.deex = .ok (s.prev.deex.map fun op => withSources op.tag.declared s.prev op) := by
  rcases hl : s.prev.deex with _ | op
  · rfl
  · rw [noLoadAhead_eq_of_deex_some hl] at hn
    simp [refresh, forward_eq, hn]

/-- The state that a freeze leaves to the end of the cycle where no load is ahead (R139, R191). -/
def State.frozen (s : State) : State :=
  (((s.putExmem s.prev.exmem).putDeex (s.prev.deex.map fun op => withSources op.tag.declared s.prev op)).putIfde
    s.prev.ifde).setNextPc s.pc

/-- The cycle of a data-cache stall ends in the freeze, with the operands in DE→EX refreshed. -/
theorem freeze_of_waits {s : State} (hr : s.running = true) (hn : s.noLoadAhead = true) (hw : s.memoryOutcome = .waits) :
    ∃ m, Keeps s.atCycleStart m ∧ m.fault = none ∧ m.halt = s.halt ∧ m.mem = s.mem ∧ m.cur.memwb = none ∧
      m.ctl.upd = none ∧
      CycleEnd s (endOfCycle m.frozen) := by
  obtain ⟨m1, hwb⟩ := writeBackStage_total s.atCycleStart
  obtain ⟨m2, hmem⟩ := memoryStage_total m1
  obtain ⟨k1, _, hdc, _, _, _, hfault⟩ := writeBackStage_frame hwb
  have h1 : m1.fault = none := hfault.trans (fault_of_running hr)
  have h2 : m2.fault = none := by
    rcases memoryStage_outcome (s := s) k1.prev k1.cfg hdc hmem with ⟨hd, _⟩ | ⟨_, c, rfl⟩ | ⟨hd, _⟩
    · rw [hw] at hd; cases hd
    · exact h1
    · rw [hw] at hd; cases hd
  obtain ⟨k, hhalt, ⟨hd, _⟩ | ⟨_, hm, hbubble, hctl⟩⟩ := memoryStage_signals hwb hmem h2
  · rw [hw] at hd; cases hd
  have hprev : m2.prev = s.prev := k.prev
  have hn2 : m2.noLoadAhead = true := by simpa only [State.noLoadAhead, hprev] using hn
  have hheld : heldDeex m2 = .ok (m2.prev.deex.map fun op => withSources op.tag.declared m2.prev op) := by
    rw [heldDeex, hctl, if_pos rfl, refresh_of_noLoadAhead hn2]
  exact ⟨m2, k, h2, hhalt, hm, hbubble, by rw [hctl]; rfl,
    .freeze m1 m2 _ hwb h1 hmem h2 (by rw [hctl]) hheld rfl⟩

/-! ### The load-use stall (R145) -/

/-- What a load-use hazard says of the micro-op in execute (R181): it is there, and it writes a loaded value. -/
theorem loadUse_writes {d : Declared} {e : Latch} (h : loadUse d e = true) :
    ∃ op, e = some op ∧ op.tag.declared.writes = .memVal := by
  unfold loadUse at h
  split at h
  · cases h
  · rename_i op
    split at h
    · rename_i hw _; exact ⟨op, rfl, hw⟩
    · cases h

/-- No branch loads a value (R104). -/
theorem branchInExecute_of_loadUse {d : Declared} {s : State} (h : loadUse d s.prev.deex = true) :
    s.branchInExecute = none := by
  obtain ⟨op, hl, hw⟩ := loadUse_writes h
  rcases ht : op.tag with i | _
  · obtain ⟨hdst, _, _, hnone, _⟩ := Sys2Proof.Laws.DeclaredFields.holds i
    have hwrites : (declared i).writes = .memVal := by simpa [ht, Tag.declared] using hw
    have hb : branchKind i = none := by
      by_contra hb
      simp [hnone (.inl hb), hwrites] at hdst
    simp [State.branchInExecute, hl, ht, hb]
  · simp [State.branchInExecute, hl, ht]

/-- Decode of a micro-op with a load-use hazard demands a stall (R145). -/
theorem decodeStage_of_loadUse {s : State} {op : MicroOp} (hl : s.prev.ifde = some op) (hf : op.fetchFault = false)
    (hu : loadUse (tagOfWord op.word).declared s.prev.deex = true) :
    decodeStage s = .next (s.atStage .de).raiseLoadStall := by
  rw [decodeStage_of_word hl hf, runTag_decode (s := s.atStage .de) rfl hl]
  split
  · exact if_pos hu
  · exact if_pos hu

/-- The cycle of a load-use hazard in decode ends in the stall, with the load moved on to EX→MEM. -/
theorem stall_of_loadUse {s : State} {op : MicroOp} (hr : s.running = true) (hn : s.noLoadAhead = true)
    (hd : s.memoryOutcome = .done) (hl : s.prev.ifde = some op) (hff : op.fetchFault = false)
    (hu : loadUse (tagOfWord op.word).declared s.prev.deex = true) :
    ∃ m, Keeps s.atCycleStart m ∧ m.fault = none ∧ m.halt = s.halt ∧ m.ctl.upd = none ∧
      m.cur.exmem.map (·.tag) = s.prev.deex.map (·.tag) ∧ CycleEnd s (endOfCycle (stallMux m)) := by
  obtain ⟨m1, hwb⟩ := writeBackStage_total s.atCycleStart
  obtain ⟨k1, _, hdc, _, _, _, hfault⟩ := writeBackStage_frame hwb
  have h1 : m1.fault = none := hfault.trans (fault_of_running hr)
  obtain ⟨m2, hmem, hfault2, _⟩ := memoryStage_of_done hd k1.prev k1.cfg hdc
  have h2 : m2.fault = none := hfault2.trans h1
  obtain ⟨k2, hhalt2, ⟨_, hctl2⟩ | ⟨hw, _⟩⟩ := memoryStage_signals hwb hmem h2
  swap
  · rw [hd] at hw; cases hw
  have hprev2 : m2.prev = s.prev := k2.prev
  have hb : s.branchInExecute = none := branchInExecute_of_loadUse hu
  obtain ⟨m3, hex, hfault3, hc⟩ := executeStage_of_passes (s := s) (m := m2) hprev2
    (branchFlags_after_memory hwb hmem h2) hn (executePasses_of_no_branch hb) (by rw [hctl2]; rfl)
  have h3 : m3.fault = none := hfault3.trans h2
  obtain ⟨k3, _, _, _, hhalt3, _⟩ := executeStage_frame hex h3
  obtain ⟨hctl3, _⟩ := executeStage_cleared_of_no_branch (.inr hb) hwb hmem h2 (by rw [hctl2]; rfl) hex h3
  have hprev3 : m3.prev = s.prev := k3.prev.trans hprev2
  have hde := decodeStage_of_loadUse (s := m3) (by rw [hprev3, hl]) hff (by rw [hprev3, hu])
  exact ⟨(m3.atStage .de).raiseLoadStall, (k2.trans k3).trans ⟨rfl, rfl, rfl, rfl, rfl, rfl, rfl, rfl⟩, h3,
    hhalt3.trans hhalt2, (congrArg Control.upd hctl3).trans rfl, (executeStage_exmem_tag hex h3).trans (by rw [hprev2]),
    .stall m1 m2 m3 _ hwb h1 hmem h2 (by rw [hctl2]; rfl) hex h3 hc hde h3 rfl rfl⟩

/-! ### The operand invariant (spec/41_hazards_forwarding.md R192) -/

/-- A forwarded operand is coherent after the write-back of MEM→WB, with EX→MEM still ahead (R191). -/
theorem sourceCoherent_sourceOf {s t : State} {r : Option Reg} {v : Word} (hx : t.prev.exmem = s.prev.exmem)
    (hreg : ∀ r, r ≠ zeroReg → t.reg r = fwdFromMemwb s.prev.memwb r (s.reg r)) (hc : sourceCoherent s r v = true) :
    sourceCoherent t r (sourceOf s.prev r v) = true := by
  rcases r with _ | r
  · rfl
  by_cases hz : r = zeroReg
  · simpa [sourceCoherent, sourceOf, operandOf, hz] using hc
  cases hwx : writesReg s.prev.exmem r with
  | true => simp [sourceCoherent, hz, hx, hwx]
  | false =>
    have hfwd : sourceOf s.prev (some r) v = fwdFromMemwb s.prev.memwb r v := by
      rcases ha : s.prev.exmem with _ | a
      · exact operandOf_of_exmem_none ha hz v
      · rw [ha] at hwx
        exact (operandOf_of_exmem_some ha hz v).trans (by simp [hwx])
    have hval : fwdFromMemwb s.prev.memwb r v = t.reg r := by
      rw [hreg r hz]
      cases hwm : writesReg s.prev.memwb r with
      | true => exact fwdFromMemwb_of_writesReg hwm ..
      | false =>
        have hv : v = s.reg r := by simpa [sourceCoherent, hz, hwx, hwm] using hc
        rw [hv]
    simp [sourceCoherent, hz, hfwd, hval]

/-- A source that decode reads is coherent with the registers it read (R143). -/
theorem sourceCoherent_readSource {s t : State} (hreg : ∀ r, t.reg r = s.reg r) (r : Option Reg) :
    sourceCoherent t r (readSource s r) = true := by
  rcases r with _ | r
  · rfl
  by_cases hz : r = zeroReg
  · subst hz; rfl
  · simp [sourceCoherent, readSource, hz, hreg]

theorem operandsCoherent_of_deex_none {s : State} (hl : s.prev.deex = none) : s.operandsCoherent = true := by
  simp only [State.operandsCoherent, hl]

theorem operandsCoherent_of_deex_some {s : State} {op : MicroOp} (hl : s.prev.deex = some op) :
    s.operandsCoherent = true ↔ sourceCoherent s op.tag.declared.rn op.rnVal = true ∧
      sourceCoherent s op.tag.declared.rm op.rmVal = true ∧ sourceCoherent s op.tag.declared.rt op.rtVal = true := by
  simp only [State.operandsCoherent, hl, Bool.and_eq_true, and_assoc]

/-- The freeze keeps the operands coherent: the refresh takes what MEM→WB, which commits in this cycle, still supplied. -/
theorem freeze_keeps_operandsCoherent {s t : State} {l : Latch} (hs : s.operandsCoherent = true)
    (hl : refresh s.prev s.prev.deex = .ok l) (hdeex : t.prev.deex = l) (hx : t.prev.exmem = s.prev.exmem)
    (hreg : ∀ r, r ≠ zeroReg → t.reg r = fwdFromMemwb s.prev.memwb r (s.reg r)) : t.operandsCoherent = true := by
  rcases refresh_ok hl with ⟨_, rfl⟩ | ⟨op, op', hop, rfl, hfwd⟩
  · exact operandsCoherent_of_deex_none hdeex
  · rw [forward_eq] at hfwd
    split at hfwd
    · cases hfwd
      obtain ⟨hrn, hrm, hrt⟩ := (operandsCoherent_of_deex_some hop).mp hs
      exact (operandsCoherent_of_deex_some hdeex).mpr ⟨sourceCoherent_sourceOf hx hreg hrn,
        sourceCoherent_sourceOf hx hreg hrm, sourceCoherent_sourceOf hx hreg hrt⟩
    · cases hfwd

/-- A micro-op just decoded has the operands of the register file (R143). -/
theorem operandsCoherent_of_decodedOp {s t : State} {tag : Tag} {op : MicroOp} (hreg : ∀ r, t.reg r = s.reg r)
    (hl : t.prev.deex = some (decodedOp tag s op)) : t.operandsCoherent = true :=
  (operandsCoherent_of_deex_some hl).mpr ⟨sourceCoherent_readSource hreg _, sourceCoherent_readSource hreg _,
    sourceCoherent_readSource hreg _⟩

/-- What decode passes has the operands of the register file as it stands in decode (R143). -/
theorem decodeStage_operandsCoherent {s m t : State} (h : decodeStage s = .next m) (hf : m.fault = none)
    (hstall : m.ctl.loadStall = false) (hdeex : t.prev.deex = m.cur.deex) (hreg : ∀ r, t.reg r = s.reg r) :
    t.operandsCoherent = true := by
  rcases decodeStage_next h hf with ⟨_, rfl⟩ | ⟨op, _, _, ⟨_, rfl⟩ | ⟨_, rfl | rfl⟩⟩
  · exact operandsCoherent_of_deex_none hdeex
  · cases hstall
  · exact operandsCoherent_of_decodedOp hreg hdeex
  · exact operandsCoherent_of_decodedOp hreg hdeex

/-- A cycle that raises no fault keeps the operands coherent, whichever way it ends. -/
theorem CycleEnd.operandsCoherent {s t : State} (hs : s.operandsCoherent = true) (h : CycleEnd s t) :
    t.operandsCoherent = true := by
  obtain ⟨m, hm, harch, _⟩ := h.committed_writeBack
  have hreg (r : Reg) (hz : r ≠ zeroReg) : t.reg r = fwdFromMemwb s.prev.memwb r (s.reg r) :=
    (harch.reg r).trans (writeBackStage_reg hm hz)
  cases h with
  | freeze m1 m2 l hwb _ hmem h2 hstall hl ht =>
    subst ht
    obtain ⟨k, _, ⟨_, hctl⟩ | ⟨_, _, _, hctl⟩⟩ := memoryStage_signals hwb hmem h2
    · rw [hctl] at hstall; cases hstall
    · have hprev : m2.prev = s.prev := k.prev
      rw [heldDeex, hctl, if_pos rfl, hprev] at hl
      have hx : m2.prev.exmem = s.prev.exmem := by rw [hprev]
      exact freeze_keeps_operandsCoherent hs hl rfl hx hreg
  | squash m1 m2 m3 _ _ _ _ _ _ _ _ ht =>
    subst ht
    obtain ⟨_, _, _, _, _, _, _, _, _, _, hcur, _⟩ := squashMux_frame m3
    exact operandsCoherent_of_deex_none (by rw [endOfCycle_prev, hcur])
  | stall m1 m2 m3 m4 _ _ _ _ _ _ _ _ _ _ _ ht =>
    subst ht
    exact operandsCoherent_of_deex_none rfl
  | fetch m1 m2 m3 m4 _ _ _ _ _ _ _ _ hde h4 hls ht =>
    subst ht
    obtain ⟨_, a4, _⟩ := decodeStage_frame hde h4
    obtain ⟨a, _⟩ := fetchStage_frame m4
    refine decodeStage_operandsCoherent hde h4 hls ?_ fun r => ((a4.trans a).reg r)
    rw [endOfCycle_prev, fetchStage_cur]

/-! ### The drain after HALT (R146, R153) -/

/-- `HALT` keeps out of IF→DE what is younger: the condition and the two conclusions of the drain. -/
def Drains (s t : State) : Prop :=
  (t.halt = true → t.prev.ifde = none) ∧ (s.halt = true → t.halt = true)

theorem haltDrains_iff (s : State) : s.haltDrains = true ↔ (s.halt = true → s.prev.ifde = none) := by
  cases hh : s.halt <;> simp [State.haltDrains, hh]

/-- The fetch of a halted machine latches a bubble (R146). -/
theorem fetchStage_ifde_of_halt {s : State} (h : s.halt = true) : (fetchStage s).cur.ifde = none := by
  rcases fetchStage_cases s with ⟨_, e⟩ | ⟨hh, _⟩ | ⟨hh, _⟩ | ⟨hh, _⟩
  · rw [e]; rfl
  all_goals rw [h] at hh; cases hh

/-- A load-use stall has a micro-op in IF→DE and leaves `HALT` (R144, R145). -/
theorem decodeStage_of_loadStall {s m : State} (h : decodeStage s = .next m) (hf : m.fault = none)
    (hc : s.ctl.loadStall = false) (hls : m.ctl.loadStall = true) : s.prev.ifde ≠ none ∧ m.halt = s.halt := by
  rcases decodeStage_next h hf with ⟨_, rfl⟩ | ⟨op, hl, _, ⟨_, rfl⟩ | ⟨_, rfl | rfl⟩⟩
  · exact absurd (hls.symm.trans hc) (by decide)
  · exact ⟨by simp [hl], rfl⟩
  · exact absurd (hls.symm.trans hc) (by decide)
  · exact absurd (hls.symm.trans hc) (by decide)

/-- Execute leaves `HALT`, the inputs of the cycle and the load-use signal as the cycle started (R140). -/
theorem executeStage_keeps_halt {s m1 m2 m3 : State} (hwb : writeBackStage s.atCycleStart = .next m1)
    (hmem : memoryStage m1 = .next m2) (h2 : m2.fault = none) (hex : executeStage m2 = .next m3) (h3 : m3.fault = none) :
    m3.halt = s.halt ∧ m3.prev = s.prev ∧ m3.ctl.loadStall = false := by
  obtain ⟨k2, hhalt2, hsig⟩ := memoryStage_signals hwb hmem h2
  obtain ⟨k3, _, _, _, hhalt3, _, _, hls⟩ := executeStage_frame hex h3
  refine ⟨hhalt3.trans hhalt2, k3.prev.trans k2.prev, hls.trans ?_⟩
  rcases hsig with ⟨_, hctl⟩ | ⟨_, _, _, hctl⟩ <;> rw [hctl] <;> rfl

/-- A cycle that raises no fault drains, whichever way it ends. -/
theorem CycleEnd.drains {s t : State} (hs : s.halt = true → s.prev.ifde = none) (h : CycleEnd s t) : Drains s t := by
  cases h with
  | freeze m1 m2 l hwb _ hmem h2 _ _ ht =>
    subst ht
    obtain ⟨k, hhalt, _⟩ := memoryStage_signals hwb hmem h2
    have hprev : m2.prev = s.prev := k.prev
    exact ⟨fun hh => (congrArg Latches.ifde hprev).trans (hs (hhalt.symm.trans hh)), fun hh => hhalt.trans hh⟩
  | squash m1 m2 m3 hwb _ hmem h2 _ hex h3 _ ht =>
    subst ht
    obtain ⟨hhalt, _⟩ := executeStage_keeps_halt hwb hmem h2 hex h3
    obtain ⟨_, _, _, _, _, hh, _, _, _, _, hcur, _⟩ := squashMux_frame m3
    exact ⟨fun _ => by rw [endOfCycle_prev, hcur], fun h => (hh.trans hhalt).trans h⟩
  | stall m1 m2 m3 m4 hwb _ hmem h2 _ hex h3 _ hde h4 hls ht =>
    subst ht
    obtain ⟨hhalt, hprev, hc⟩ := executeStage_keeps_halt hwb hmem h2 hex h3
    obtain ⟨hne, hhalt4⟩ := decodeStage_of_loadStall hde h4 hc hls
    rw [hprev] at hne
    have hnot : ¬ s.halt = true := fun hh => hne (hs hh)
    exact ⟨fun hh => absurd ((hhalt4.trans hhalt).symm.trans hh) hnot, fun hh => absurd hh hnot⟩
  | fetch m1 m2 m3 m4 hwb _ hmem h2 _ hex h3 _ hde h4 _ ht =>
    subst ht
    obtain ⟨hhalt, _⟩ := executeStage_keeps_halt hwb hmem h2 hex h3
    obtain ⟨_, _, _, _, _, _, hhalt4⟩ := decodeStage_frame hde h4
    obtain ⟨_, _, _, _, _, _, _, hh, _⟩ := fetchStage_frame m4
    refine ⟨fun h => fetchStage_ifde_of_halt (hh.symm.trans h), fun h => hh.trans ?_⟩
    exact hhalt4.elim (fun e => e.trans (hhalt.trans h)) id

end Sys2Proof.Machine

open Sys2Proof.Machine

/-- Settles O52: a stopped machine and a fault keep operands, registers and latches, and every end of a cycle keeps them
coherent. -/
theorem operandsStayCoherent : Obligations.OperandsStayCoherent := by
  intro s t hs h
  cases hst : s.stopped with
  | true => rw [step_of_stopped hst] at h; cases h; exact hs
  | false =>
    rcases step_cases (by simp [State.running, hst]) h with ⟨f, rfl⟩ | ⟨_, hend⟩
    · exact hs
    · exact hend.operandsCoherent hs

/-- Settles O54: a stopped machine and a fault keep `HALT` and IF→DE, and every end of a cycle drains. -/
theorem haltDrains : Obligations.HaltDrains := by
  intro s t hs h
  rw [haltDrains_iff] at hs ⊢
  have hd : Drains s t := by
    cases hst : s.stopped with
    | true => rw [step_of_stopped hst] at h; cases h; exact ⟨hs, id⟩
    | false =>
      rcases step_cases (by simp [State.running, hst]) h with ⟨f, rfl⟩ | ⟨_, hend⟩
      · exact ⟨hs, id⟩
      · exact hend.drains hs
  obtain ⟨hifde, hhalt⟩ := hd
  exact ⟨hifde, fun hh => ⟨hhalt hh, hifde (hhalt hh)⟩⟩

/-- Settles O41: the cycle reaches the stall, and a bubble in DE→EX is no load. -/
theorem loadUseStallCycle : Obligations.LoadUseStallCycle := by
  intro s op hr hn hd hl hff hu
  obtain ⟨m, k, hf, hhalt, hupd, hexmem, hend⟩ := stall_of_loadUse hr hn hd hl hff hu
  have hifde : m.prev.ifde = some op := (congrArg Latches.ifde k.prev).trans hl
  have hbp := (endOfCycle_bp_none (stallMux m) hupd).trans k.bp
  exact ⟨endOfCycle (stallMux m), hend.step_eq hr hf, hf, rfl, hifde, k.pc, k.ic, hbp, hhalt, k.squashes,
    congrArg (· + 1#64) k.cycles, hexmem, fun _ => rfl⟩

/-- Settles O42: the cycle reaches the freeze. -/
theorem freezeCycle : Obligations.FreezeCycle := by
  intro s hr hn hw
  obtain ⟨m, k, hf, hhalt, hmem, hbubble, hupd, hend⟩ := freeze_of_waits hr hn hw
  have hprev : m.prev = s.prev := k.prev
  have hbp := (endOfCycle_bp_none m.frozen hupd).trans k.bp
  refine ⟨endOfCycle m.frozen, hend.step_eq hr hf, hf, ?_, k.pc, hbp, hhalt, hmem, k.squashes, k.ic,
    congrArg (· + 1#64) k.cycles⟩
  simp [State.frozen, State.setNextPc, hprev, hbubble]

/-- Settles O44: a fault keeps the predictor and the count, and so does every end of a cycle without a branch. -/
theorem onlyBranchesTrainThePredictor : Obligations.OnlyBranchesTrainThePredictor := by
  intro s t hr h hn
  rcases step_cases hr h with ⟨f, rfl⟩ | ⟨_, hend⟩
  · exact ⟨rfl, rfl⟩
  · exact hend.untrained hn

/-- Settles O45: the architecture at the end of the cycle is that after write-back, which is the commit of MEM→WB. -/
theorem onlyWriteBackCommits : Obligations.OnlyWriteBackCommits := by
  intro s t hr h hf
  obtain ⟨m, hwb, ha, hcfg, hcycles⟩ := (step_ends hr h hf).committed_writeBack
  have hrun : s.atCycleStart.runStop = false := runStop_of_running hr
  refine ⟨hcycles, hcfg, fun hl => ?_, fun op hl => ?_, fun m' hm' => ?_⟩
  · rw [writeBackStage_of_bubble (s := s.atCycleStart) hl] at hwb
    cases hwb
    exact ⟨ha.x, ha.z, ha.n, ha.runStop.trans hrun, ha.retired⟩
  · rcases writeBackStage_next hwb with ⟨hl', _⟩ | ⟨op', hl', rfl⟩ <;> cases hl.symm.trans hl'
    have he := commit_eq op.tag.declared op.tag.halts op (s.atCycleStart.atStage .wb)
    refine ⟨fun r => ?_, ?_, ?_, ?_, ?_⟩
    · exact (ha.reg r).trans (commit_reg_eq_supplied ..)
    · rw [ha.z, he]; rfl
    · rw [ha.n, he]; rfl
    · rw [ha.runStop, he, ← Tag.halts_iff]
      simp [hrun]
    · rw [ha.retired, he]; rfl
  · cases hwb.symm.trans hm'
    exact ⟨ha.x.symm, ha.z.symm, ha.n.symm⟩

/-- Settles O46: only the memory stage writes to memory, and it writes a store's bytes where it passes. -/
theorem onlyStoresWriteMemory : Obligations.OnlyStoresWriteMemory := by
  intro s t hr h hf b
  obtain ⟨m1, m2, hwb, hmem, h2, k⟩ := (step_ends hr h hf).committed
  obtain ⟨k1, hm1, _⟩ := writeBackStage_frame hwb
  have hprev : m1.prev = s.prev := k1.prev
  have hmem1 : m1.mem = s.mem := hm1
  obtain ⟨_, _, hsig⟩ := memoryStage_signals hwb hmem h2
  rw [k.mem]
  refine ⟨fun op i n hl ht hk hd => ?_, fun hno => ?_⟩
  · have hstall : m2.ctl.memStall = false := by
      rcases hsig with ⟨_, hctl⟩ | ⟨hw, _⟩
      · rw [hctl]; rfl
      · rw [hd] at hw; cases hw
    rw [memoryStage_mem_of_store (by rw [hprev, hl]) ht hk hmem h2 hstall, hmem1,
      readByte_memWrite _ _ _ _ (store_width_lt hk)]
    rfl
  · rcases hno with hno | hnd
    · rw [memoryStage_mem_of_no_store hmem h2 (by rw [hprev]; exact hno), hmem1]
    · rcases hsig with ⟨hd, _⟩ | ⟨_, hm2, _⟩
      · exact absurd hd hnd
      · rw [hm2]

/-- Settles O13, by the first test of the cycle. -/
theorem stoppedMachineIsUnchanged : Obligations.StoppedMachineIsUnchanged := by
  intro s h
  refine step_of_stopped ?_
  rcases h with h | h
  · simp [State.stopped, h]
  · simp [State.stopped, Option.isSome_iff_ne_none, h]

/-- Settles O16, stage by stage. -/
theorem stepRunsTheDecodedInstruction : Obligations.StepRunsTheDecodedInstruction := by
  refine ⟨fun s hr => step_of_running (by simpa [State.running] using hr), fun m op i hl ht => ?wb, fun m op i hl ht => ?mem,
    fun m op i hs hl ht => ?ex, fun m op i hc hl hff _ hd => ?de,
    fun m op ht => ⟨fun hl => ?wbU, fun hl => ?memU, fun hs hl => ?exU⟩, fun m op hc hl hff hd => ?deU,
    fun m hls => ?fetch, fun m i hh ha hc halign hd => ?word⟩
  case wb => rw [writeBackStage_of_tag hl, ht]; rfl
  case mem => rw [afterWriteBack, memoryStage_of_tag hl, ht]; rfl
  case ex => rw [afterMemory_of_noStall hs, executeStage_of_tag hl, ht]; rfl
  case de => rw [afterExecute_of_noSquash hc, decodeStage_of_word hl hff, tagOfWord_of_decode hd]; rfl
  case wbU => rw [writeBackStage_of_tag hl, ht]; rfl
  case memU => rw [afterWriteBack, memoryStage_of_tag hl, ht]; rfl
  case exU => rw [afterMemory_of_noStall hs, executeStage_of_tag hl, ht]; rfl
  case deU => rw [afterExecute_of_noSquash hc, decodeStage_of_word hl hff, tagOfWord_of_not_decode hd]; rfl
  case fetch => simp [afterDecode, hls]
  case word =>
    refine ⟨_, fetchStage_of_hit hh ha hc, rfl, rfl, ?_⟩
    exact (decode_read32_of_aligned halign).trans hd
end

section
/-! SUPPORT. PROOFS of the pipeline engine family (spec/40_pipeline_engine.md), whole runs: the cycle of an empty pipeline
(R146 to R149), the first fetch after reset (spec/70_reset_and_hazards.md R372), and one instruction alone in the pipeline
against sequential execution (R374). -/

namespace Sys2Proof.Machine

/-! ### Driving the machine -/

theorem running_iff (s : State) : s.running = true ↔ s.runStop = false ∧ s.fault = none := by
  simp [State.running, State.stopped]

/-- The first cycle of a drive. -/
theorem drive_succ_of_step {s t : State} (k : Nat) (hr : s.running = true) (h : step s = .next t) :
    drive (k + 1) s = drive k t := by
  have hst : s.stopped = false := by simpa [State.running] using hr
  have hc : cycle s = .next t := h
  simp [drive, hst, hc]

/-- The last cycle of a drive. -/
theorem drive_succ_of_drive {s m : State} (k : Nat) (h : drive k s = .next m) : drive (k + 1) s = drive 1 m := by
  induction k generalizing s with
  | zero => cases h; rfl
  | succ k ih =>
    cases hst : s.stopped with
    | true =>
      have hm : s = m := by simpa [drive, hst] using h
      subst hm
      simp [drive, hst]
    | false =>
      obtain ⟨s', hs'⟩ := step_total s
      have hr : s.running = true := by simp [State.running, hst]
      rw [drive_succ_of_step k hr hs'] at h
      rw [drive_succ_of_step (k + 1) hr hs']
      exact ih h

/-! ### What the fetch answers -/

/-- The state that the fetch stage leaves, by what it latches, the next PC it chooses and its cache (R146, R147). -/
def State.afterFetch (s : State) (f : Latch) (next : Word) (ic : Cache) : State :=
  (((s.atStage .fetch).setIc ic).putIfde f).setNextPc next

/-- The answer of the fetch (R146, R147, R213, R214): halted, not admitted, a stall of the instruction cache, or a hit. -/
structure FetchAnswers (s : State) (f : Latch) (next : Word) (ic : Cache) : Prop where
  halted : s.halt = true → f = none ∧ next = s.pc ∧ ic = s.ic
  notAdmitted : s.halt = false → admitted s.cfg s.pc = false → f = some (fetchFaultOp s.pc) ∧ next = s.pc ∧ ic = s.ic
  access : s.halt = false → admitted s.cfg s.pc = true → ic = (cacheAccess .instruction s.cfg.ic s.ic s.pc).1
  stalls : s.halt = false → admitted s.cfg s.pc = true → (cacheAccess .instruction s.cfg.ic s.ic s.pc).2 = false →
    f = none ∧ next = s.pc
  hits : s.halt = false → admitted s.cfg s.pc = true → (cacheAccess .instruction s.cfg.ic s.ic s.pc).2 = true →
    f = some (fetchedOp (read32 s.mem s.pc) s.pc (predict s.cfg s.bp s.pc)) ∧ next = (predict s.cfg s.bp s.pc).next

theorem fetchStage_answers (s : State) : ∃ f next ic, fetchStage s = s.afterFetch f next ic ∧ FetchAnswers s f next ic := by
  rcases fetchStage_cases s with ⟨hh, e⟩ | ⟨hh, ha, e⟩ | ⟨hh, ha, hc, e⟩ | ⟨hh, ha, hc, e⟩
  · exact ⟨none, s.pc, s.ic, e, by constructor <;> simp [hh]⟩
  · exact ⟨some (fetchFaultOp s.pc), s.pc, s.ic, e, by constructor <;> simp [hh, ha]⟩
  · exact ⟨_, _, _, e, by constructor <;> simp [hh, ha, hc]⟩
  · exact ⟨_, _, _, e, by constructor <;> simp [hh, ha, hc]⟩

/-! ### The cycle of an empty pipeline -/

/-- The state that the four stages leave to fetch where every latch is a bubble (R26). -/
def State.drained (s : State) : State :=
  { s with
    cur := ⟨s.cur.ifde, none, none, none⟩
    stage := .de
    ctl := Control.cleared
    ic := tickFill s.cfg.ic s.ic
    dc := tickFill s.cfg.dc s.dc }

theorem drained_eq (s : State) :
    ((((((s.atCycleStart.atStage .wb).atStage .mem).putMemwb none).atStage .ex).putExmem none).atStage .de).putDeex none =
      s.drained := by
  simp only [State.drained, State.atCycleStart, tickFills, State.startCycle, State.setIc, State.setDc, State.atStage,
    State.putMemwb, State.putExmem, State.putDeex]

theorem endOfCycle_afterFetch_drained (s : State) (f : Latch) (next : Word) (ic : Cache) :
    endOfCycle (s.drained.afterFetch f next ic) = { s with
      pc := next
      prev := ⟨f, none, none, none⟩
      cur := ⟨f, none, none, none⟩
      stage := .wb
      ctl := Control.cleared
      ic := ic
      dc := tickFill s.cfg.dc s.dc
      cycles := s.cycles + 1#64 } := by
  simp only [endOfCycle, State.afterFetch, State.drained, State.atStage, State.setIc, State.putIfde, State.setNextPc,
    Control.cleared, Option.getD_some]

/-- The cycle of an empty pipeline is its fetch. -/
theorem step_of_empty {s : State} (hr : s.running = true) (hl : s.prev = ⟨none, none, none, none⟩) :
    ∃ f next ic, step s = .next (endOfCycle (s.drained.afterFetch f next ic)) ∧ FetchAnswers s.drained f next ic := by
  obtain ⟨f, next, ic, he, ha⟩ := fetchStage_answers s.drained
  have hf : s.fault = none := fault_of_running hr
  have hend : CycleEnd s (endOfCycle (fetchStage s.drained)) := by
    rw [← drained_eq]
    refine .fetch _ _ _ _ (writeBackStage_of_bubble ?_) ?_ (memoryStage_of_bubble ?_) ?_ ?_ (executeStage_of_bubble ?_)
      ?_ ?_ (decodeStage_of_bubble ?_) ?_ ?_ rfl <;> simp [State.atCycleStart, State.startCycle, hl, hf, Control.cleared]
  refine ⟨f, next, ic, ?_, ha⟩
  rw [← he]
  exact hend.step_eq hr ((fetchStage_fault s.drained).trans hf)

/-! ### The first fetch after reset -/

/-- The fill engine of the instruction cache `k` cycles after reset: idle, then filling the block of the reset address. -/
def firstFill (g : CacheGeometry) (a : Nat) : Nat → Option Fill
  | 0 => none
  | k + 1 => some ⟨blockOf g a, g.penalty - k⟩

theorem lookup_emptySet (g : CacheGeometry) (t : Nat) : lookup t (emptySet g) = none := by
  cases h : lookup t (emptySet g) with
  | none => rfl
  | some w =>
    obtain ⟨v, hv, hp, _⟩ := findWay_some h
    have hinvalid : v = Way.invalid := List.eq_of_mem_replicate (List.mem_of_getElem? hv)
    subst hinvalid
    cases hp

/-- A block installed into an empty cache is found (R243, R248). -/
theorem lookup_install_empty {g : CacheGeometry} (hw : 1 ≤ g.ways) (f : Option Fill) (b : Nat) :
    lookup (tagOf g b) (setWays g (install g ⟨[], f⟩ b) (setIndexOf g b)) ≠ none := by
  obtain ⟨n, hn⟩ := Nat.exists_eq_add_of_le' hw
  have hempty : setWays g ⟨[], f⟩ (setIndexOf g b) = Way.invalid :: List.replicate n Way.invalid := by
    show emptySet g = _
    rw [emptySet, hn, List.replicate_succ]
  rw [setWays_install, if_pos rfl, hempty]
  simp [touch, victim, findWay, Way.invalid, lookup]

/-- An access that waits for nothing and finds its block hits (R243). -/
theorem cacheAccess_of_lookup {k : CacheKind} {g : CacheGeometry} {c : Cache} {a : Word} (hf : c.fill = none)
    (hl : lookup (tagOf g a.toNat) (setWays g c (setIndexOf g a.toNat)) ≠ none) : (cacheAccess k g c a).2 = true := by
  obtain ⟨w, hw⟩ := Option.ne_none_iff_exists'.mp hl
  simp [cacheAccess, hf, cacheLookup, hw]

/-- The block of an address has the set and the tag of the address (R241). -/
theorem blockOf_index_tag {g : CacheGeometry} (hb : 0 < g.block) (a : Nat) :
    setIndexOf g (blockOf g a) = setIndexOf g a ∧ tagOf g (blockOf g a) = tagOf g a := by
  simp [setIndexOf, tagOf, blockOf, Nat.mul_div_cancel _ hb]

/-- Until the penalty has passed the access stalls, and the fill goes on (R245 to R247). -/
theorem cacheAccess_firstFill {g : CacheGeometry} (a : Word) {k : Nat} (hk : k < g.penalty) :
    cacheAccess .instruction g (tickFill g ⟨[], firstFill g a.toNat k⟩) a =
      (⟨[], firstFill g a.toNat (k + 1)⟩, false) := by
  cases k with
  | zero =>
    have hmiss : lookup (tagOf g a.toNat) (setWays g ⟨[], none⟩ (setIndexOf g a.toNat)) = none := lookup_emptySet g _
    have hpos : g.penalty ≠ 0 := by omega
    simp [firstFill, tickFill, cacheAccess, cacheLookup, hmiss, hpos]
  | succ k =>
    have hleft : g.penalty - k - 1 ≠ 0 := by omega
    have hnext : g.penalty - k - 1 = g.penalty - (k + 1) := by omega
    simp [firstFill, tickFill, cacheAccess, hnext ▸ hleft, hnext]

/-- Once the penalty has passed the access hits (R247, R251). -/
theorem cacheAccess_firstFill_done {g : CacheGeometry} (hb : 0 < g.block) (hw : 1 ≤ g.ways) (a : Word) :
    (cacheAccess .instruction g (tickFill g ⟨[], firstFill g a.toNat g.penalty⟩) a).2 = true := by
  obtain ⟨hset, htag⟩ := blockOf_index_tag hb a.toNat
  cases hp : g.penalty with
  | zero =>
    have hmiss : lookup (tagOf g a.toNat) (setWays g ⟨[], none⟩ (setIndexOf g a.toNat)) = none := lookup_emptySet g _
    simp [firstFill, tickFill, cacheAccess, cacheLookup, hmiss, hp]
  | succ p =>
    refine cacheAccess_of_lookup ?_ ?_
    · simp [tickFill, firstFill, hp]
    · have hfound := lookup_install_empty hw (some ⟨blockOf g a.toNat, 1⟩) (blockOf g a.toNat)
      rw [hset, htag] at hfound
      simpa [tickFill, firstFill, hp, setWays] using hfound

/-- A machine since whose reset no word has been fetched, with the fill engine of its instruction cache at `f`. -/
structure AwaitsFirstWord (c : Config) (m : Memory) (f : Option Fill) (t : State) : Prop where
  running : t.running = true
  cfg : t.cfg = c
  mem : t.mem = m
  pc : t.pc = c.resetPc
  latches : t.prev = ⟨none, none, none, none⟩
  halt : t.halt = false
  bp : t.bp = ⟨0, [], []⟩
  ic : t.ic = ⟨[], f⟩

theorem initial_awaitsFirstWord (c : Config) (m : Memory) : AwaitsFirstWord c m none (State.initial c m) :=
  ⟨rfl, rfl, rfl, rfl, rfl, rfl, rfl, rfl⟩

/-- An untrained predictor predicts the next word (R213). -/
theorem predict_untrained (c : Config) (pc : Word) : (predict c ⟨0, [], []⟩ pc).next = pc + 4#64 := rfl

/-- The fetch answers of a machine that awaits its first word are those of the reset state's predictor and memory. -/
theorem AwaitsFirstWord.drained {c : Config} {m : Memory} {f : Option Fill} {t : State} (h : AwaitsFirstWord c m f t) :
    t.drained.halt = false ∧ t.drained.cfg = c ∧ t.drained.pc = c.resetPc ∧ t.drained.mem = m ∧
      t.drained.bp = ⟨0, [], []⟩ ∧ t.drained.ic = tickFill c.ic ⟨[], f⟩ :=
  ⟨h.halt, h.cfg, h.pc, h.mem, h.bp, by rw [State.drained, h.cfg, h.ic]⟩

/-- A cycle in which the fetch stalls. -/
theorem AwaitsFirstWord.stalls {c : Config} {m : Memory} {f f' : Option Fill} {t : State} (h : AwaitsFirstWord c m f t)
    (ha : admitted c c.resetPc = true)
    (hc : cacheAccess .instruction c.ic (tickFill c.ic ⟨[], f⟩) c.resetPc = (⟨[], f'⟩, false)) :
    ∃ t', step t = .next t' ∧ AwaitsFirstWord c m f' t' := by
  obtain ⟨l, next, ic, hstep, hfetch⟩ := step_of_empty h.running h.latches
  obtain ⟨hhalt, hcfg, hpc, _, _, hic⟩ := h.drained
  have haccess := hfetch.access hhalt
  have hstalls := hfetch.stalls hhalt
  rw [hcfg, hpc, hic, hc] at haccess hstalls
  obtain ⟨rfl, rfl⟩ := hstalls ha rfl
  rw [endOfCycle_afterFetch_drained, haccess ha] at hstep
  exact ⟨_, hstep, h.running, h.cfg, h.mem, rfl, rfl, h.halt, h.bp, rfl⟩

/-- The cycle in which the fetch hits (R147). -/
theorem AwaitsFirstWord.hits {c : Config} {m : Memory} {f : Option Fill} {t : State} (h : AwaitsFirstWord c m f t)
    (ha : admitted c c.resetPc = true)
    (hc : (cacheAccess .instruction c.ic (tickFill c.ic ⟨[], f⟩) c.resetPc).2 = true) :
    ∃ t', step t = .next t' ∧ t'.pc = c.resetPc + 4#64 ∧
      t'.prev.ifde = some (fetchedOp (read32 m c.resetPc) c.resetPc (predict c ⟨0, [], []⟩ c.resetPc)) := by
  obtain ⟨l, next, ic, hstep, hfetch⟩ := step_of_empty h.running h.latches
  obtain ⟨hhalt, hcfg, hpc, hmem, hbp, hic⟩ := h.drained
  have hhits := hfetch.hits hhalt
  rw [hcfg, hpc, hmem, hbp, hic] at hhits
  obtain ⟨rfl, rfl⟩ := hhits ha hc
  rw [endOfCycle_afterFetch_drained] at hstep
  exact ⟨_, hstep, predict_untrained c c.resetPc, rfl⟩

/-- Through the penalty of the first miss nothing is fetched. -/
theorem drive_awaitsFirstWord {c : Config} (m : Memory) (ha : admitted c c.resetPc = true) {k : Nat}
    (hk : k ≤ c.ic.penalty) :
    ∃ t, drive k (State.initial c m) = .next t ∧ AwaitsFirstWord c m (firstFill c.ic c.resetPc.toNat k) t := by
  induction k with
  | zero => exact ⟨_, rfl, initial_awaitsFirstWord c m⟩
  | succ k ih =>
    obtain ⟨t, ht, hwait⟩ := ih (by omega)
    obtain ⟨t', hstep, hwait'⟩ := hwait.stalls ha (cacheAccess_firstFill c.resetPc hk)
    exact ⟨t', by rw [drive_succ_of_drive k ht, drive_succ_of_step 0 hwait.running hstep, drive], hwait'⟩

end Sys2Proof.Machine

open Sys2Proof.Machine

/-- Settles O40: the cycle is its fetch, on the caches after the tick. -/
theorem fetchCycle : Obligations.FetchCycle := by
  intro s hr hl
  obtain ⟨f, next, ic, hstep, h⟩ := step_of_empty hr hl
  rw [endOfCycle_afterFetch_drained] at hstep
  refine ⟨f, next, ic, hstep, h.halted, fun hh ha => ?_, fun hh ha => ⟨h.access hh ha, h.stalls hh ha, fun hc => ?_⟩⟩
  · obtain ⟨hf, hnext, hic⟩ := h.notAdmitted hh ha
    exact ⟨hnext, hic, _, hf, rfl, rfl⟩
  · obtain ⟨hf, hnext⟩ := h.hits hh ha hc
    exact ⟨hnext, _, hf, rfl, rfl, rfl, hnext.symm, rfl, rfl⟩

/-- Settles O56: through the penalty the fetch stalls, and the cycle after it hits. -/
theorem firstFetchAfterReset : Obligations.FirstFetchAfterReset := by
  intro c m hvalid ha
  obtain ⟨hic, _⟩ := c.valid_iff.mp hvalid
  obtain ⟨_, _, hblock, hways⟩ := c.ic.valid_iff.mp hic
  refine ⟨fun k hk => ?_, ?_⟩
  · obtain ⟨t, ht, hwait⟩ := drive_awaitsFirstWord m ha hk
    exact ⟨t, ht, by rw [hwait.latches], hwait.pc⟩
  · obtain ⟨t, ht, hwait⟩ := drive_awaitsFirstWord m ha (Nat.le_refl _)
    obtain ⟨t', hstep, hpc, hifde⟩ := hwait.hits ha (cacheAccess_firstFill_done (by omega) hways c.resetPc)
    refine ⟨t', _, ?_, hifde, rfl, rfl, hpc⟩
    rw [Nat.add_comm, drive_succ_of_drive _ ht, drive_succ_of_step 0 hwait.running hstep, drive]
end

section
/-! SUPPORT. PROOFS of the pipeline engine family (spec/40_pipeline_engine.md), one instruction alone in the pipeline: its four
cycles commit what sequential execution makes of it (spec/41_hazards_forwarding.md R192, spec/70_reset_and_hazards.md R374). -/

namespace Sys2Proof.Machine

/-! ### A fetch that waits -/

theorem fetchWaits_iff (s : State) (n : Nat) :
    s.fetchWaits n = true ↔ admitted s.cfg s.pc = true ∧
      ∃ f, s.ic.fill = some f ∧ f.block = blockOf s.cfg.ic s.pc.toNat ∧ n < f.remaining := by
  cases hf : s.ic.fill <;> simp [State.fetchWaits, hf]

/-- The tick at the start of a cycle takes one from what remains of the fill (R133, R247). -/
theorem fetchWaits_tick {s m : State} {n : Nat} (k : Keeps s.atCycleStart m) (h : s.fetchWaits (n + 1) = true) :
    m.fetchWaits n = true := by
  obtain ⟨ha, f, hf, hb, hn⟩ := (fetchWaits_iff s _).mp h
  have hcfg : m.cfg = s.cfg := k.cfg
  have hpc : m.pc = s.pc := k.pc
  have hic : m.ic = tickFill s.cfg.ic s.ic := k.ic
  have hfill : (tickFill s.cfg.ic s.ic).fill = some ⟨f.block, f.remaining - 1⟩ := by
    rcases tickFill_cases s.cfg.ic s.ic with ⟨hnone, _⟩ | ⟨f', hf', hle, _⟩ | ⟨f', hf', _, e⟩
    · rw [hf] at hnone; cases hnone
    · cases hf.symm.trans hf'; omega
    · cases hf.symm.trans hf'; rw [e]
  rw [fetchWaits_iff, hcfg, hpc, hic]
  exact ⟨ha, _, hfill, hb, by show n < f.remaining - 1; omega⟩

/-- While the fetch waits for its block, or is halted, it latches a bubble and keeps `PC` and its cache (R146, R246). -/
theorem fetchStage_of_waits {s : State} {n : Nat} (h : s.fetchWaits n = true) :
    fetchStage s = s.afterFetch none s.pc s.ic := by
  obtain ⟨ha, f, hf, hb, _⟩ := (fetchWaits_iff s _).mp h
  have hacc : cacheAccess .instruction s.cfg.ic s.ic s.pc = (s.ic, false) := by simp [cacheAccess, hf, hb]
  obtain ⟨l, next, ic, he, hfetch⟩ := fetchStage_answers s
  rw [he]
  cases hh : s.halt with
  | true =>
    obtain ⟨rfl, rfl, rfl⟩ := hfetch.halted hh
    rfl
  | false =>
    obtain ⟨rfl, rfl⟩ := hfetch.stalls hh ha (by rw [hacc])
    rw [hfetch.access hh ha, hacc]

/-! ### A cycle whose fetch waits -/

/-- One cycle from `s` to `t` with no fault, in which nothing is fetched, and the latches it leaves. -/
structure WaitingCycle (n : Nat) (s t : State) (l : Latches) : Prop where
  step : step s = .next t
  fault : t.fault = none
  cfg : t.cfg = s.cfg
  cycles : t.cycles = s.cycles + 1#64
  waits : t.fetchWaits n = true
  latches : t.prev = l

/-- A cycle whose stages pass and whose fetch waits: it ends with what its stages latched, the architecture after
write-back and the memory after the memory stage. -/
theorem waitingCycle_of_stages {s m1 m2 m3 m4 : State} {n : Nat} (hr : s.running = true)
    (hw : s.fetchWaits (n + 1) = true) (hwb : writeBackStage s.atCycleStart = .next m1)
    (hmem : memoryStage m1 = .next m2) (h2 : m2.fault = none) (hs : m2.ctl.memStall = false)
    (hex : executeStage m2 = .next m3) (h3 : m3.fault = none) (hc : m3.ctl.clearDecode = false)
    (hde : decodeStage m3 = .next m4) (h4 : m4.fault = none) (hls : m4.ctl.loadStall = false) :
    ∃ t, WaitingCycle n s t ⟨none, m4.cur.deex, m3.cur.exmem, m2.cur.memwb⟩ ∧ KeepsArchitecture m1 t ∧
      t.mem = m2.mem ∧ t.dc = m2.dc := by
  obtain ⟨k1, _, _, _, _, _, hfault⟩ := writeBackStage_frame hwb
  have h1 : m1.fault = none := hfault.trans (fault_of_running hr)
  obtain ⟨k2, a2, _⟩ := memoryStage_frame hmem h2
  obtain ⟨k3, a3, hm3, hd3, _, hcur3, _⟩ := executeStage_frame hex h3
  obtain ⟨k4, a4, hm4, hd4, hcur4, _⟩ := decodeStage_frame hde h4
  have k : Keeps s.atCycleStart m4 := ((k1.trans k2).trans k3).trans k4
  have hwait : m4.fetchWaits n = true := fetchWaits_tick k hw
  have hfetch := fetchStage_of_waits hwait
  have hend := CycleEnd.fetch m1 m2 m3 m4 hwb h1 hmem h2 hs hex h3 hc hde h4 hls rfl
  have hf : (endOfCycle (fetchStage m4)).fault = none := (fetchStage_fault m4).trans h4
  refine ⟨endOfCycle (fetchStage m4), ⟨hend.step_eq hr hf, hf, ?_, ?_, ?_, ?_⟩, ((a2.trans a3).trans a4).trans ?_, ?_, ?_⟩
  all_goals rw [hfetch]
  · exact k.cfg
  · exact congrArg (· + 1#64) k.cycles
  · exact hwait
  · rw [endOfCycle_prev]
    show { m4.cur with ifde := none } = _
    rw [hcur4, hcur3]
  · exact ⟨rfl, rfl, rfl, rfl, rfl⟩
  · exact hm4.trans hm3
  · exact hd4.trans hd3

/-- What a cycle that neither commits nor accesses memory leaves of `s`: everything but a tick of the data cache. -/
structure Untouched (s t : State) : Prop where
  arch : KeepsArchitecture s t
  mem : t.mem = s.mem
  dc : t.dc = tickFill s.cfg.dc s.dc

/-! ### The stages of an instruction alone -/

theorem decodedOp_congr {s m : State} (h : ∀ r, m.reg r = s.reg r) (t : Tag) (op : MicroOp) :
    decodedOp t m op = decodedOp t s op := by
  have hread (r : Option Reg) : readSource m r = readSource s r := by
    cases r with
    | none => rfl
    | some r => exact h r
  simp only [decodedOp, hread]

/-- Decode with nothing in execute passes the instruction (R143). -/
theorem decodeStage_alone {m : State} {op : MicroOp} {i : Instr} (hl : m.prev.ifde = some op) (hx : m.prev.deex = none)
    (hff : op.fetchFault = false) (hd : decode op.word = .instr i) :
    ∃ m', decodeStage m = .next m' ∧ m'.fault = m.fault ∧ m'.ctl = m.ctl ∧
      m'.cur.deex = some (decodedOp (.instr i) m op) := by
  have huse : loadUse (declared i) (m.atStage .de).prev.deex = false := by rw [State.atStage_prev, hx]; rfl
  have hstage : decodeStage m = exec i (m.atStage .de) := by
    rw [decodeStage_of_word hl hff, tagOfWord_of_decode hd, runTag]
  exact ⟨_, hstage.trans (exec_decode_of_noLoadUse (s := m.atStage .de) rfl hl huse), rfl, rfl, rfl⟩

/-- With nothing ahead the operands stay as decode read them (R186). -/
theorem forward_alone {d : Declared} {L : Latches} {op : MicroOp} (hx : L.exmem = none) (hm : L.memwb = none) :
    forward d L op = .ok op := by
  have hsource (r : Option Reg) (v : Word) : sourceOf L r v = v := by
    cases r <;> simp [sourceOf, operandOf, hx, hm]
  have hfree (r : Option Reg) : notLoadedBy L.exmem r = true := by cases r <;> simp [notLoadedBy, hx]
  simp [forward_eq, sourcesNotLoaded, hfree, withSources, hsource]

theorem exStage_alone {d : Declared} (f : MicroOp → MicroOp) {op : MicroOp} {s : State} (hx : s.prev.exmem = none)
    (hm : s.prev.memwb = none) : exStage d f op s = .next (s.putExmem (some (f op))) := by
  simp only [exStage, forward_alone hx hm]

/-- The micro-op with what the memory stage loads into it. -/
def loadedOp (i : Instr) (m : Memory) (op : MicroOp) : MicroOp :=
  match memKind i with
  | .load w => { op with memVal := memRead m op.memAddr w }
  | _ => op

/-- The memory with what the memory stage stores to it. -/
def storedMem (i : Instr) (m : Memory) (op : MicroOp) : Memory :=
  match memKind i with
  | .store w => memWrite m op.memAddr op.memVal w
  | _ => m

/-- The base register and the offset of the load or store of a word, by the fields that both kinds have (R91). -/
def wordAddress (s : State) (w : InstWord) : Word := s.reg (field w 5 5) + loadStoreOffset (field w 12 9)

/-- `o` is what execute makes of the instruction: its commit, after its access, is its sequential execution. -/
structure Executed (i : Instr) (s : State) (pc : Word) (w : InstWord) (o : MicroOp) : Prop where
  tag : o.tag = .instr i
  commits : commit (declared i) (isHalt i) (loadedOp i s.mem o) (s.setMem (storedMem i s.mem o)) =
    (seqExec i pc s).1.countRetired
  address : ∀ n, memKind i = .load n ∨ memKind i = .store n → o.memAddr = wordAddress s w

/-- The fields that a load or store is decoded from. -/
theorem encLoadStore_fields {base : InstWord} (hb : base &&& 0xFFE00C00#32 = base) (imm9 : BitVec 9) (rn rt : Reg) :
    field (Sys2Proof.encLoadStore base imm9 rn rt) 5 5 = rn ∧ field (Sys2Proof.encLoadStore base imm9 rn rt) 12 9 = imm9 := by
  have h := Sys2Proof.readLoadStore_encLoadStore hb .ldurX imm9 rn rt
  simp only [Sys2Proof.readLoadStore] at h
  injection h with h
  injection h with himm hrn hrt
  exact ⟨hrn, himm⟩

theorem wordAddress_encLoadStore {base : InstWord} (hb : base &&& 0xFFE00C00#32 = base) (s : State) (imm9 : BitVec 9)
    (rn rt : Reg) :
    wordAddress s (Sys2Proof.encLoadStore base imm9 rn rt) = s.reg rn + loadStoreOffset imm9 := by
  obtain ⟨hrn, himm⟩ := encLoadStore_fields hb imm9 rn rt
  rw [wordAddress, hrn, himm]

/-- Execute of an instruction that is no branch, with its operands as decode read them from `s` (R270, R300, R341). -/
theorem exec_execute_alone {m s : State} {op : MicroOp} {i : Instr} (hp : m.stage = .ex)
    (hl : m.prev.deex = some (decodedOp (.instr i) s op)) (hx : m.prev.exmem = none) (hm : m.prev.memwb = none)
    (hb : branchKind i = none) :
    ∃ o, exec i m = .next (m.putExmem (some o)) ∧ Executed i s op.pc (encode i) o := by
  cases i with
  | b | br | bEQ | bNE | bGE | bLT | bGT | bLE | cbz | cbnz => cases hb
  | ldurX | ldurW | ldurh | ldurb | sturX | sturW | sturh | sturb =>
    exact ⟨_, (inStage_ex hp hl).trans (exStage_alone _ hx hm), rfl, rfl,
      fun _ _ => (wordAddress_encLoadStore rfl s _ _ _).symm⟩
  | _ => exact ⟨_, (inStage_ex hp hl).trans (exStage_alone _ hx hm), rfl, rfl, by simp [memKind]⟩

/-- The memory stage of an access that is admitted and hits, and of any other instruction, completes (R136, R138). -/
theorem memoryStage_alone {m : State} {o : MicroOp} {i : Instr} (hl : m.prev.exmem = some o) (ht : o.tag = .instr i)
    (hc : ∀ n, memKind i = .load n ∨ memKind i = .store n →
      accessAdmitted m.cfg o.memAddr n = true ∧ (cacheAccess .data m.cfg.dc m.dc o.memAddr).2 = true) :
    ∃ m', memoryStage m = .next m' ∧ m'.fault = m.fault ∧ m'.ctl = m.ctl ∧ m'.mem = storedMem i m.mem o ∧
      m'.cur.memwb = some (loadedOp i m.mem o) ∧ m'.prev = m.prev := by
  rw [memoryStage_of_tag hl, ht, runTag, exec_memory (s := m.atStage .mem) rfl hl]
  unfold storedMem loadedOp
  cases hk : memKind i with
  | none => exact ⟨_, rfl, rfl, rfl, rfl, rfl, rfl⟩
  | load n =>
    obtain ⟨ha, hhit⟩ := hc n (.inl hk)
    exact ⟨_, memAccess_of_hit _ ha hhit, rfl, rfl, rfl, rfl, rfl⟩
  | store n =>
    obtain ⟨ha, hhit⟩ := hc n (.inr hk)
    exact ⟨_, memAccess_of_hit _ ha hhit, rfl, rfl, rfl, rfl, rfl⟩

/-- The register file is what its registers read as. -/
theorem x_eq_of_reg_eq {a b : State} (h : ∀ r, b.reg r = a.reg r) : b.x = a.x := by
  refine Vector.ext fun k hk => ?_
  have hmod : k % 32 = k := by omega
  simpa [State.reg, hmod, hk] using h (BitVec.ofNat 5 k)

/-- A commit depends on the architecture alone. -/
theorem KeepsArchitecture.commit {a b : State} (h : KeepsArchitecture a b) (d : Declared) (halt : Bool) (op : MicroOp) :
    KeepsArchitecture (commit d halt op a) (commit d halt op b) := by
  have hx := x_eq_of_reg_eq (a := Machine.commit d halt op a) (b := Machine.commit d halt op b) fun r => by
    rw [commit_reg, commit_reg, h.reg]
  rw [commit_eq d halt op a, commit_eq d halt op b]
  exact ⟨hx, by simp only [h.z], by simp only [h.n], by simp only [h.runStop], by simp only [h.retired]⟩

/-! ### The four cycles of an instruction alone -/

/-- The first state of a cycle has the architecture, the memory and the latches of the state before it (R133). -/
theorem writeBackStage_alone {s : State} (hm : s.prev.memwb = none) :
    ∃ m, writeBackStage s.atCycleStart = .next m ∧ KeepsArchitecture s m ∧ Keeps s.atCycleStart m ∧ m.fault = s.fault ∧
      m.ctl = Control.cleared ∧ m.mem = s.mem ∧ m.dc = tickFill s.cfg.dc s.dc :=
  ⟨_, writeBackStage_of_bubble (s := s.atCycleStart) hm, ⟨rfl, rfl, rfl, rfl, rfl⟩,
    ⟨rfl, rfl, rfl, rfl, rfl, rfl, rfl, rfl⟩, rfl, rfl, rfl, rfl⟩

/-- Write-back and memory of a cycle with nothing to do in either. -/
theorem memoryStage_of_bubbles {s : State} (hm : s.prev.memwb = none) (hx : s.prev.exmem = none) :
    ∃ m1 m2, writeBackStage s.atCycleStart = .next m1 ∧ memoryStage m1 = .next m2 ∧ KeepsArchitecture s m1 ∧
      KeepsArchitecture s m2 ∧ m2.prev = s.prev ∧ m2.fault = s.fault ∧ m2.ctl = Control.cleared ∧ m2.mem = s.mem ∧
      m2.dc = tickFill s.cfg.dc s.dc ∧ m2.cur.memwb = none := by
  obtain ⟨m1, hwb, ha, k, hf, hctl, hmem, hdc⟩ := writeBackStage_alone hm
  have hprev : m1.prev = s.prev := k.prev
  exact ⟨m1, _, hwb, memoryStage_of_bubble (by rw [hprev, hx]), ha, ⟨ha.x, ha.z, ha.n, ha.runStop, ha.retired⟩, hprev, hf,
    hctl, hmem, hdc, rfl⟩

section
variable {s : State} {n : Nat} {i : Instr} {op : MicroOp}

/-- The first cycle decodes it. -/
theorem decodeCycle (hr : s.running = true) (hw : s.fetchWaits (n + 1) = true)
    (hl : s.prev = ⟨some op, none, none, none⟩) (hff : op.fetchFault = false) (hd : decode op.word = .instr i) :
    ∃ t, WaitingCycle n s t ⟨none, some (decodedOp (.instr i) s op), none, none⟩ ∧ Untouched s t := by
  obtain ⟨m1, m2, hwb, hmem, ha1, ha2, hprev, hf, hctl, hm, hdc, hmemwb⟩ :=
    memoryStage_of_bubbles (s := s) (by rw [hl]) (by rw [hl])
  have h2 : m2.fault = none := hf.trans (fault_of_running hr)
  have hex : executeStage m2 = .next ((m2.atStage .ex).putExmem none) := executeStage_of_bubble (by rw [hprev, hl])
  obtain ⟨m4, hde, h4, hctl4, hdeex⟩ := decodeStage_alone (m := (m2.atStage .ex).putExmem none) (op := op)
    (by simp [hprev, hl]) (by simp [hprev, hl]) hff hd
  obtain ⟨t, ht, harch, htm, htdc⟩ := waitingCycle_of_stages hr hw hwb hmem h2 (by simp [hctl, Control.cleared]) hex
    (by simp [h2]) (by simp [hctl, Control.cleared]) hde (by simp [h4, h2]) (by simp [hctl4, hctl, Control.cleared])
  rw [hdeex, decodedOp_congr (s := s) (fun r => by simpa using ha2.reg r), hmemwb] at ht
  exact ⟨t, ht, ha1.trans harch, htm.trans hm, htdc.trans hdc⟩

/-- The second cycle executes it. -/
theorem executeCycle {s' : State} (hr : s.running = true) (hw : s.fetchWaits (n + 1) = true)
    (hl : s.prev = ⟨none, some (decodedOp (.instr i) s' op), none, none⟩) (hb : branchKind i = none) :
    ∃ t o, WaitingCycle n s t ⟨none, none, some o, none⟩ ∧ Untouched s t ∧ Executed i s' op.pc (encode i) o := by
  obtain ⟨m1, m2, hwb, hmem, ha1, ha2, hprev, hf, hctl, hm, hdc, hmemwb⟩ :=
    memoryStage_of_bubbles (s := s) (by rw [hl]) (by rw [hl])
  have h2 : m2.fault = none := hf.trans (fault_of_running hr)
  obtain ⟨o, he, ho⟩ := exec_execute_alone (m := m2.atStage .ex) (s := s') (op := op) rfl (by simp [hprev, hl])
    (by simp [hprev, hl]) (by simp [hprev, hl]) hb
  have hex : executeStage m2 = .next ((m2.atStage .ex).putExmem (some o)) := by
    rw [executeStage_of_tag (op := decodedOp (.instr i) s' op) (by rw [hprev, hl])]
    exact he
  have hde := decodeStage_of_bubble (s := (m2.atStage .ex).putExmem (some o)) (by simp [hprev, hl])
  obtain ⟨t, ht, harch, htm, htdc⟩ := waitingCycle_of_stages hr hw hwb hmem h2 (by simp [hctl, Control.cleared]) hex
    (by simp [h2]) (by simp [hctl, Control.cleared]) hde (by simp [h2]) (by simp [hctl, Control.cleared])
  rw [hmemwb] at ht
  exact ⟨t, o, by simpa using ht, ⟨ha1.trans harch, htm.trans hm, htdc.trans hdc⟩, ho⟩

/-- The third cycle accesses memory for it. -/
theorem memoryCycle (hr : s.running = true) (hw : s.fetchWaits (n + 1) = true)
    (hl : s.prev = ⟨none, none, some op, none⟩) (ht : op.tag = .instr i)
    (hc : ∀ n, memKind i = .load n ∨ memKind i = .store n → accessAdmitted s.cfg op.memAddr n = true ∧
      (cacheAccess .data s.cfg.dc (tickFill s.cfg.dc s.dc) op.memAddr).2 = true) :
    ∃ t, WaitingCycle n s t ⟨none, none, none, some (loadedOp i s.mem op)⟩ ∧ KeepsArchitecture s t ∧
      t.mem = storedMem i s.mem op := by
  obtain ⟨m1, hwb, ha, k, hf, hctl, hm1, hdc⟩ := writeBackStage_alone (s := s) (by rw [hl])
  have hprev : m1.prev = s.prev := k.prev
  have hcfg : m1.cfg = s.cfg := k.cfg
  have h1 : m1.fault = none := hf.trans (fault_of_running hr)
  obtain ⟨m2, hmem, hf2, hctl2, hm2, hmemwb, hprev2⟩ := memoryStage_alone (m := m1) (by rw [hprev, hl]) ht
    (by rw [hcfg, hdc]; exact hc)
  have h2 : m2.fault = none := hf2.trans h1
  have hex := executeStage_of_bubble (s := m2) (by rw [hprev2, hprev, hl])
  have hde := decodeStage_of_bubble (s := (m2.atStage .ex).putExmem none) (by simp [hprev2, hprev, hl])
  obtain ⟨t, htc, harch, htm, _⟩ := waitingCycle_of_stages hr hw hwb hmem h2 (by simp [hctl2, hctl, Control.cleared]) hex
    (by simp [h2]) (by simp [hctl2, hctl, Control.cleared]) hde (by simp [h2]) (by simp [hctl2, hctl, Control.cleared])
  rw [hmemwb, hm1] at htc
  rw [hm1] at hm2
  exact ⟨t, by simpa using htc, ha.trans harch, htm.trans hm2⟩

/-- The fourth cycle commits it. -/
theorem commitCycle (hr : s.running = true) (hw : s.fetchWaits (n + 1) = true)
    (hl : s.prev = ⟨none, none, none, some op⟩) (ht : op.tag = .instr i) :
    ∃ t, WaitingCycle n s t ⟨none, none, none, none⟩ ∧
      KeepsArchitecture (commit (declared i) (isHalt i) op s) t ∧ t.mem = s.mem := by
  obtain ⟨m1, hwb⟩ := writeBackStage_total s.atCycleStart
  obtain ⟨k, hm1, _, _, hctl, _, hf⟩ := writeBackStage_frame hwb
  have hprev : m1.prev = s.prev := k.prev
  have h1 : m1.fault = none := hf.trans (fault_of_running hr)
  have hctl1 : m1.ctl = Control.cleared := hctl
  have hcommit : KeepsArchitecture (commit (declared i) (isHalt i) op s) m1 := by
    rcases writeBackStage_next hwb with ⟨hnone, _⟩ | ⟨op', hl', rfl⟩
    · rw [show s.atCycleStart.prev = s.prev from rfl, hl] at hnone; cases hnone
    · rw [show s.atCycleStart.prev = s.prev from rfl, hl] at hl'
      cases hl'
      rw [ht]
      have hstart : KeepsArchitecture s (s.atCycleStart.atStage .wb) := ⟨rfl, rfl, rfl, rfl, rfl⟩
      exact hstart.commit _ _ _
  have hmem := memoryStage_of_bubble (s := m1) (by rw [hprev, hl])
  have hex := executeStage_of_bubble (s := (m1.atStage .mem).putMemwb none) (by simp [hprev, hl])
  have hde := decodeStage_of_bubble (s := (((m1.atStage .mem).putMemwb none).atStage .ex).putExmem none)
    (by simp [hprev, hl])
  obtain ⟨t, htc, harch, htm, _⟩ := waitingCycle_of_stages hr hw hwb hmem (by simp [h1]) (by simp [hctl1, Control.cleared])
    hex (by simp [h1]) (by simp [hctl1, Control.cleared]) hde (by simp [h1]) (by simp [hctl1, Control.cleared])
  exact ⟨t, by simpa using htc, hcommit.trans harch, htm.trans hm1⟩

end

/-! ### The four cycles together -/

theorem WaitingCycle.running {n : Nat} {s t : State} {l : Latches} (h : WaitingCycle n s t l)
    (ha : KeepsArchitecture s t) (hr : s.running = true) : t.running = true :=
  (running_iff t).mpr ⟨ha.runStop.trans (runStop_of_running hr), h.fault⟩

theorem alone_iff (s : State) (op : MicroOp) (n : Nat) :
    s.alone op n = true ↔ s.running = true ∧ s.halt = false ∧ s.prev = ⟨some op, none, none, none⟩ ∧
      op.fetchFault = false ∧ s.fetchWaits n = true := by
  simp [State.alone, and_assoc]

/-- An idle fill engine has nothing to tick (R247). -/
theorem tickFill_of_idle {g : CacheGeometry} {c : Cache} (h : c.fill = none) : tickFill g c = c := by
  simp [tickFill, h]

theorem loadedOp_tag (i : Instr) (m : Memory) (op : MicroOp) : (loadedOp i m op).tag = op.tag := by
  unfold loadedOp
  split <;> rfl

/-- Where the access of a load or store is admitted and hits, the four cycles of an instruction alone execute it, access
memory for it and commit it. -/
theorem drive_alone {s : State} {op : MicroOp} {i : Instr} (hal : s.alone op 4 = true)
    (hd : Sys2Proof.decode op.word = .instr i) (hb : branchKind i = none)
    (hc : ∀ n, memKind i = .load n ∨ memKind i = .store n →
      accessAdmitted s.cfg (wordAddress s op.word) n = true ∧ s.dataHits (wordAddress s op.word) = true) :
    ∃ t o, drive 4 s = .next t ∧ t.fault = none ∧ t.cycles = s.cycles + 4#64 ∧ t.prev = ⟨none, none, none, none⟩ ∧
      Executed i s op.pc op.word o ∧ t.mem = storedMem i s.mem o ∧
      KeepsArchitecture (commit (declared i) (isHalt i) (loadedOp i s.mem o) (s.setMem (storedMem i s.mem o))) t := by
  obtain ⟨hr, _, hl, hff, hw⟩ := (alone_iff s op 4).mp hal
  obtain ⟨s1, h1, u1⟩ := decodeCycle hr hw hl hff hd
  have hr1 := h1.running u1.arch hr
  obtain ⟨s2, o, h2, u2, ho⟩ := executeCycle (s := s1) hr1 h1.waits h1.latches hb
  have hr2 := h2.running u2.arch hr1
  rw [(Sys2Proof.encode_of_decode hd).2] at ho
  have hcfg2 : s2.cfg = s.cfg := h2.cfg.trans h1.cfg
  have hmem2 : s2.mem = s.mem := u2.mem.trans u1.mem
  have haccess (n : Nat) (hk : memKind i = .load n ∨ memKind i = .store n) :
      accessAdmitted s2.cfg o.memAddr n = true ∧
        (cacheAccess .data s2.cfg.dc (tickFill s2.cfg.dc s2.dc) o.memAddr).2 = true := by
    obtain ⟨ha, hhits⟩ := hc n hk
    simp only [State.dataHits, Bool.and_eq_true, decide_eq_true_eq] at hhits
    obtain ⟨hidle, hhit⟩ := hhits
    have hdc : s2.dc = s.dc := by rw [u2.dc, u1.dc, tickFill_of_idle hidle, tickFill_of_idle hidle]
    rw [ho.address n hk, hcfg2, hdc, tickFill_of_idle hidle]
    exact ⟨ha, hhit⟩
  obtain ⟨s3, h3, a3, hm3⟩ := memoryCycle (s := s2) hr2 h2.waits h2.latches ho.tag haccess
  have hr3 := h3.running a3 hr2
  obtain ⟨s4, h4, a4, hm4⟩ := commitCycle (s := s3) hr3 h3.waits h3.latches ((loadedOp_tag ..).trans ho.tag)
  rw [hmem2] at hm3 a4
  have a03 := (u1.arch.trans u2.arch).trans a3
  have hbase : KeepsArchitecture (s.setMem (storedMem i s.mem o)) s3 := ⟨a03.x, a03.z, a03.n, a03.runStop, a03.retired⟩
  refine ⟨s4, o, ?_, h4.fault, ?_, h4.latches, ho, hm4.trans hm3, (hbase.commit _ _ _).trans a4⟩
  · rw [drive_succ_of_step 3 hr h1.step, drive_succ_of_step 2 hr1 h2.step, drive_succ_of_step 1 hr2 h3.step,
      drive_succ_of_step 0 hr3 h4.step, drive]
  · rw [h4.cycles, h3.cycles, h2.cycles, h1.cycles]
    simp only [BitVec.add_assoc]
    rfl

end Sys2Proof.Machine

open Sys2Proof.Machine

/-- Settles O57: the four cycles carry the instruction to its commit, which is its sequential execution. -/
theorem loneInstructionMatchesSequential : Obligations.LoneInstructionMatchesSequential := by
  intro s op i hal hd hb hc
  obtain ⟨t, o, hdrive, hf, hcycles, hl, ho, hmem, ha⟩ := drive_alone hal hd hb hc
  have hcommit := commit_keeps (declared i) (isHalt i) (loadedOp i s.mem o) (s.setMem (storedMem i s.mem o))
  have hretired : t.retired = s.retired + 1#64 := by rw [ha.retired, commit_eq]; rfl
  obtain ⟨_, hcmem, _⟩ := hcommit
  rw [ho.commits] at ha hcmem
  exact ⟨t, hdrive, hf, ha.x, ha.z, ha.n, hmem.trans hcmem.symm, ha.runStop, hretired, hcycles, by rw [hl]⟩
end

section
/-! SUPPORT. PROOFS of the hazard and forwarding family (spec/41_hazards_forwarding.md): the load-use detector (R181, R184),
the forwarding network (R185 to R188), the two laws behind it (R190, R192), and the invariant that no load is forwarded
from (R189). -/

namespace Sys2Proof.Machine

/-! ### The load-use detector -/

/-- Membership in `Regs(d)` (R184). -/
theorem Declared.mem_regs_iff (d : Declared) (r : Reg) :
    r ∈ d.regs ↔ r ≠ zeroReg ∧ (d.rn = some r ∨ d.rm = some r ∨ d.rt = some r ∨ d.dst = some r) := by
  rw [Declared.regs, List.mem_filter, and_comm]
  simp [@eq_comm _ (some r)]

/-- The detector by the declared fields of the micro-op in execute (R181). -/
theorem loadUse_iff (d : Declared) (e : Latch) :
    loadUse d e = true ↔ ∃ op rt, e = some op ∧ op.tag.declared.writes = .memVal ∧ op.tag.declared.dst = some rt ∧
      rt ∈ d.regs := by
  rcases e with _ | op
  · simp [loadUse]
  cases hd : op.tag.declared.dst with
  | none => simp [loadUse, hd]
  | some rt => cases hw : op.tag.declared.writes <;> simp [loadUse, hw, hd, Declared.mem_regs_iff]

/-- The tags whose destination is written from the loaded value are the four loads, and it is their `rt` (R104). -/
theorem Tag.loads_iff (t : Tag) (rt : Reg) :
    t.declared.writes = .memVal ∧ t.declared.dst = some rt ↔
      ∃ (imm9 : BitVec 9) (rn : Reg), t = .instr (.ldurX imm9 rn rt) ∨ t = .instr (.ldurW imm9 rn rt) ∨
        t = .instr (.ldurh imm9 rn rt) ∨ t = .instr (.ldurb imm9 rn rt) := by
  cases t with
  | unknown => simp [Tag.declared, Declared.nothing]
  | instr i => cases i <;> simp [Tag.declared, Machine.declared, Declared.nothing]

/-! ### The forwarding network -/

theorem writesReg_of_dst {a : MicroOp} {r : Reg} (hw : a.tag.declared.writes ≠ .none)
    (hd : a.tag.declared.dst = some r) : writesReg (some a) r = true := by
  simp [writesReg, hw, hd]

/-- Past an EX→MEM that does not write the register, the operand comes from MEM→WB or from decode (R186). -/
theorem operandOf_of_not_exmem {L : Latches} {r : Reg} (hz : r ≠ zeroReg) (hw : writesReg L.exmem r = false) (v : Word) :
    operandOf L r v = fwdFromMemwb L.memwb r v := by
  rcases hx : L.exmem with _ | a
  · exact operandOf_of_exmem_none hx hz v
  · rw [hx] at hw
    rw [operandOf_of_exmem_some hx hz, hw]
    rfl

theorem fwdVal_zeroReg (L : Latches) (v : Word) : fwdVal L zeroReg v = .ok v := if_pos rfl

/-- A micro-op in EX→MEM that writes the register supplies its result, or faults where it is a load (R186, R189). -/
theorem fwdVal_of_exmem {L : Latches} {a : MicroOp} {r : Reg} (hz : r ≠ zeroReg) (hx : L.exmem = some a)
    (hw : writesReg (some a) r = true) (v : Word) :
    fwdVal L r v = if a.tag.declared.writes = .memVal then .error .forwardFromLoad else .ok a.result := by
  rw [fwdVal_eq, hx, notLoadedBy_of_writesReg hz hw, operandOf_of_exmem_some hx hz, hw]
  by_cases hk : a.tag.declared.writes = .memVal <;> simp [hk]

theorem fwdVal_of_not_exmem {L : Latches} {r : Reg} (hz : r ≠ zeroReg) (hw : writesReg L.exmem r = false) (v : Word) :
    fwdVal L r v = .ok (fwdFromMemwb L.memwb r v) := by
  have hn : notLoadedBy L.exmem (some r) = true := by
    rcases hx : L.exmem with _ | a
    · rfl
    · exact notLoadedBy_of_not_writesReg (by rwa [hx] at hw)
  rw [fwdVal_eq, if_pos hn, operandOf_of_not_exmem hz hw]

/-- A micro-op in MEM→WB that writes the register supplies its value (R188). -/
theorem fwdFromMemwb_of_dst {l : Latch} {b : MicroOp} {r : Reg} (hl : l = some b) (hw : b.tag.declared.writes ≠ .none)
    (hd : b.tag.declared.dst = some r) (v : Word) : fwdFromMemwb l r v = supplied b := by
  simp [hl, fwdFromMemwb, writesReg_of_dst hw hd]

theorem fwdFromMemwb_of_not_writesReg {l : Latch} {r : Reg} (hw : writesReg l r = false) (v : Word) :
    fwdFromMemwb l r v = v := by
  cases l with
  | none => rfl
  | some b => simp [fwdFromMemwb, hw]

/-- Where no micro-op ahead writes the register, the operand read at decode stays (R186). -/
theorem fwdVal_of_not_writesReg {L : Latches} {r : Reg} (hx : writesReg L.exmem r = false)
    (hm : writesReg L.memwb r = false) (v : Word) : fwdVal L r v = .ok v := by
  by_cases hz : r = zeroReg
  · rw [hz, fwdVal_zeroReg]
  · rw [fwdVal_of_not_exmem hz hx, fwdFromMemwb_of_not_writesReg hm]

/-- The forwarding law for one source (R192): EX→MEM commits last, MEM→WB before it, and a coherent operand is the
register's value where neither writes it. -/
theorem operandOf_eq_committedReg {s : State} {r : Reg} {v : Word} (hc : sourceCoherent s (some r) v = true)
    (hn : notLoadedBy s.prev.exmem (some r) = true) : operandOf s.prev r v = s.committedReg r := by
  by_cases hz : r = zeroReg
  · simpa [sourceCoherent, operandOf, State.committedReg, hz] using hc
  cases hwx : writesReg s.prev.exmem r with
  | true =>
    rcases hx : s.prev.exmem with _ | a <;> rw [hx] at hwx hn
    · cases hwx
    · rw [notLoadedBy_of_writesReg hz hwx] at hn
      have hsup : supplied a = a.result := by
        cases hk : a.tag.declared.writes <;> simp_all [supplied]
      simp [operandOf_of_exmem_some hx hz, State.committedReg, hz, hx, hwx, hsup]
  | false =>
    rw [operandOf_of_not_exmem hz hwx]
    cases hwm : writesReg s.prev.memwb r with
    | true =>
      rcases hm : s.prev.memwb with _ | b <;> rw [hm] at hwm
      · cases hwm
      · simp [fwdFromMemwb, State.committedReg, hz, hwx, hm, hwm]
    | false =>
      have hv : v = s.reg r := by simpa [sourceCoherent, hz, hwx, hwm] using hc
      simp [fwdFromMemwb_of_not_writesReg hwm, State.committedReg, hz, hwx, hwm, hv]

/-! ### No load is forwarded from (R189) -/

/-- Whether a latch loads a register depends on its tag alone. -/
theorem notLoadedBy_congr {l l' : Latch} (h : l'.map (·.tag) = l.map (·.tag)) (r : Option Reg) :
    notLoadedBy l' r = notLoadedBy l r := by
  rcases r with _ | r
  · rfl
  rcases l with _ | a
  · rw [Option.map_eq_none_iff.mp h]
  · obtain ⟨a', rfl, htag⟩ := Option.map_eq_some_iff.mp h
    simp [notLoadedBy, htag]

/-- A declared register of a micro-op without a load-use hazard is not loaded by the micro-op in execute. -/
theorem notLoadedBy_of_not_loadUse {d : Declared} {e : Latch} (hu : loadUse d e = false) {r : Option Reg}
    (hr : r ∈ [d.rn, d.rm, d.rt, d.dst]) : notLoadedBy e r = true := by
  rcases r with _ | q
  · rfl
  rcases e with _ | a
  · rfl
  by_contra hn
  obtain ⟨⟨hz, hw⟩, hd⟩ : (q ≠ zeroReg ∧ a.tag.declared.writes = .memVal) ∧ a.tag.declared.dst = some q := by
    simpa [notLoadedBy] using hn
  have hq : q ∈ d.regs := (d.mem_regs_iff q).mpr ⟨hz, by simpa [@eq_comm _ (some q)] using hr⟩
  have huse : loadUse d (some a) = true := (loadUse_iff d (some a)).mpr ⟨a, q, rfl, hw, hd, hq⟩
  simp [hu] at huse

/-- The detector sees every load that forwarding of the decoded micro-op could meet (R181, R189). -/
theorem sourcesNotLoaded_of_not_loadUse {d : Declared} {e : Latch} (hu : loadUse d e = false) :
    sourcesNotLoaded d e = true := by
  simp [sourcesNotLoaded, notLoadedBy_of_not_loadUse hu]

theorem sourcesNotLoaded_congr {l l' : Latch} (h : l'.map (·.tag) = l.map (·.tag)) (d : Declared) :
    sourcesNotLoaded d l' = sourcesNotLoaded d l := by
  simp only [sourcesNotLoaded, notLoadedBy_congr h]

theorem noLoadAhead_of_deex_none {s : State} (hl : s.prev.deex = none) : s.noLoadAhead = true := by
  simp only [State.noLoadAhead, hl]

/-- What decode passes has no load ahead of it once the micro-op in execute has moved on (R181, R189). -/
theorem decodeStage_noLoadAhead {s m t : State} (h : decodeStage s = .next m) (hf : m.fault = none)
    (hstall : m.ctl.loadStall = false) (hdeex : t.prev.deex = m.cur.deex)
    (hexmem : t.prev.exmem.map (·.tag) = s.prev.deex.map (·.tag)) : t.noLoadAhead = true := by
  have hpass {op : MicroOp} (hu : loadUse (tagOfWord op.word).declared s.prev.deex = false)
      (hl : t.prev.deex = some (decodedOp (tagOfWord op.word) s op)) : t.noLoadAhead = true := by
    rw [noLoadAhead_eq_of_deex_some hl, sourcesNotLoaded_congr hexmem]
    exact sourcesNotLoaded_of_not_loadUse hu
  rcases decodeStage_next h hf with ⟨_, rfl⟩ | ⟨op, _, _, ⟨_, rfl⟩ | ⟨hu, rfl | rfl⟩⟩
  · exact noLoadAhead_of_deex_none hdeex
  · cases hstall
  · exact hpass hu hdeex
  · exact hpass hu hdeex

/-- The refresh of a freeze holds the micro-op behind the same EX→MEM (R139, R191). -/
theorem refresh_keeps_noLoadAhead {s t : State} {l : Latch} (hs : s.noLoadAhead = true)
    (hl : refresh s.prev s.prev.deex = .ok l) (hdeex : t.prev.deex = l) (hx : t.prev.exmem = s.prev.exmem) :
    t.noLoadAhead = true := by
  rw [refresh_of_noLoadAhead hs] at hl
  cases hl
  rcases hop : s.prev.deex with _ | op <;> rw [hop] at hdeex
  · exact noLoadAhead_of_deex_none hdeex
  · rw [noLoadAhead_eq_of_deex_some hdeex, hx]
    rwa [noLoadAhead_eq_of_deex_some hop] at hs

/-- A cycle that raises no fault leaves no load ahead of the micro-op in execute, whichever way it ends. -/
theorem CycleEnd.noLoadAhead {s t : State} (hs : s.noLoadAhead = true) (h : CycleEnd s t) : t.noLoadAhead = true := by
  cases h with
  | freeze m1 m2 l hwb _ hmem h2 hstall hl ht =>
    subst ht
    obtain ⟨k, _, ⟨_, hctl⟩ | ⟨_, _, _, hctl⟩⟩ := memoryStage_signals hwb hmem h2
    · rw [hctl] at hstall; cases hstall
    · have hprev : m2.prev = s.prev := k.prev
      rw [heldDeex, hctl, if_pos rfl, hprev] at hl
      have hx : m2.prev.exmem = s.prev.exmem := by rw [hprev]
      exact refresh_keeps_noLoadAhead hs hl rfl hx
  | squash m1 m2 m3 _ _ _ _ _ _ _ _ ht =>
    subst ht
    obtain ⟨_, _, _, _, _, _, _, _, _, _, hcur, _⟩ := squashMux_frame m3
    exact noLoadAhead_of_deex_none (by rw [endOfCycle_prev, hcur])
  | stall m1 m2 m3 m4 _ _ _ _ _ _ _ _ _ _ _ ht =>
    subst ht
    exact noLoadAhead_of_deex_none rfl
  | fetch m1 m2 m3 m4 _ _ _ _ _ hex h3 _ hde h4 hls ht =>
    subst ht
    obtain ⟨k3, _⟩ := executeStage_frame hex h3
    obtain ⟨_, _, _, _, hcur4, _⟩ := decodeStage_frame hde h4
    refine decodeStage_noLoadAhead hde h4 hls ?_ ?_
    · rw [endOfCycle_prev, fetchStage_cur]
    · rw [endOfCycle_prev, fetchStage_cur, hcur4, k3.prev]
      exact executeStage_exmem_tag hex h3

/-! ### The faults of a cycle without a load ahead (R352) -/

/-- An access outside `MEM_ADMIT` faults the cycle (R136). -/
theorem step_of_memoryFaults {s : State} (hr : s.running = true) (hd : s.memoryOutcome = .faults) :
    step s = .next (takeFault s .dataNotAdmitted) := by
  obtain ⟨m1, hwb⟩ := writeBackStage_total s.atCycleStart
  obtain ⟨m2, hmem⟩ := memoryStage_total m1
  obtain ⟨k1, _, hdc, _, _, _, hfault⟩ := writeBackStage_frame hwb
  have h1 : m1.fault = none := hfault.trans (fault_of_running hr)
  have hm2 : m2 = { m1.atStage .mem with fault := some .dataNotAdmitted } := by
    rcases memoryStage_outcome (s := s) k1.prev k1.cfg hdc hmem with ⟨h, _⟩ | ⟨h, _⟩ | ⟨_, e⟩
    · rw [hd] at h; cases h
    · rw [hd] at h; cases h
    · exact e
  have hstages : runStages s = .next m2 := by
    show andThen (writeBackStage s.atCycleStart) afterWriteBack = _
    rw [hwb, andThen_ok h1, afterWriteBack, hmem, hm2]
    rfl
  rw [step_of_running (by simpa [State.running] using hr), hstages, hm2]
  rfl

/-- With no load ahead, execute raises at most `MisalignedTarget` (R320, R352). -/
theorem executeStage_fault_of_noLoadAhead {s m : State} (hn : s.noLoadAhead = true) (h : executeStage s = .next m) :
    m.fault = s.fault ∨ m.fault = some .misalignedTarget := by
  rcases hl : s.prev.deex with _ | op
  · rw [executeStage_of_bubble hl] at h; cases h; exact .inl rfl
  rcases ht : op.tag with i | _
  · cases hb : branchKind i with
    | none =>
      obtain ⟨o, he⟩ := executeStage_nonbranch hl ht hb
      rw [he, if_pos hn] at h
      cases h; exact .inl rfl
    | some c =>
      obtain ⟨o, he⟩ := executeStage_branch hl ht hb
      rw [he, if_pos hn] at h
      split at h
      · cases h; exact .inl rfl
      · cases h; exact .inr rfl
  · rw [executeStage_unknown hl ht] at h; cases h; exact .inl rfl

/-- Decode raises at most `FetchNotAdmitted` (R343, R352). -/
theorem decodeStage_fault {s m : State} (h : decodeStage s = .next m) :
    m.fault = s.fault ∨ m.fault = some .fetchNotAdmitted := by
  rcases hl : s.prev.ifde with _ | op
  · rw [decodeStage_of_bubble hl] at h; cases h; exact .inl rfl
  cases hff : op.fetchFault with
  | true =>
    simp only [decodeStage, hl, hff, if_true, raise] at h
    cases h; exact .inr rfl
  | false =>
    rw [decodeStage_of_word hl hff, runTag_decode (s := s.atStage .de) rfl hl] at h
    unfold deHalt deStage at h
    split at h <;> split at h <;> cases h <;> exact .inl rfl

/-- After execute, a cycle raises at most `FetchNotAdmitted`: only decode can fault (R353). -/
theorem afterExecute_fault {s t : State} (h : afterExecute s = .next t) :
    t.fault = s.fault ∨ t.fault = some .fetchNotAdmitted := by
  unfold afterExecute at h
  split at h
  · obtain ⟨_, _, _, _, _, _, _, _, hf, _⟩ := squashMux_frame s
    cases h; exact .inl hf
  obtain ⟨m, hde, ⟨_, rfl⟩ | ⟨_, h⟩⟩ := andThen_next h
  · exact decodeStage_fault hde
  have hkeep : t.fault = m.fault := by
    unfold afterDecode at h
    split at h
    · cases h; rfl
    · cases h; exact fetchStage_fault m
  rw [hkeep]
  exact decodeStage_fault hde

/-- No cycle that starts without a load ahead raises `ForwardFromLoad` (R189, R352), whatever its memory stage does. -/
theorem step_fault_of_noLoadAhead {s t : State} (hr : s.running = true) (hn : s.noLoadAhead = true)
    (h : step s = .next t) : t.fault ≠ some .forwardFromLoad := by
  cases hd : s.memoryOutcome with
  | done =>
    obtain ⟨m, hm, _, _, hstep⟩ := step_of_memoryDone hr hd
    have hprev : m.prev = s.prev := hm.keeps.prev
    have hn' : m.noLoadAhead = true := by simpa only [State.noLoadAhead, hprev] using hn
    have hback {u : State} (hu : andThen (executeStage m) afterExecute = .next u) : u.fault ≠ some .forwardFromLoad := by
      obtain ⟨m', hex, ⟨_, rfl⟩ | ⟨hf, hu⟩⟩ := andThen_next hu
      · rcases executeStage_fault_of_noLoadAhead hn' hex with e | e <;> simp [e, hm.fault]
      · rcases afterExecute_fault hu with e | e <;> simp [e, hf]
    rw [hstep] at h
    rcases settle_next h with ⟨u, f, hu, hf, rfl⟩ | ⟨_, hf⟩
    · rw [takeFault_fault, ← hf]; exact hback hu
    · simp [hf]
  | waits =>
    obtain ⟨m, _, hf, _, _, _, _, hend⟩ := freeze_of_waits hr hn hd
    have hf' : (endOfCycle m.frozen).fault = none := hf
    rw [hend.step_eq hr hf'] at h
    cases h
    rw [hf']
    simp
  | faults =>
    rw [step_of_memoryFaults hr hd] at h
    cases h
    simp

end Sys2Proof.Machine

open Sys2Proof.Machine

/-- Settles O53: a stopped machine and a fault keep the latches, and every end of a cycle leaves no load ahead. -/
theorem noLoadIsForwardedFrom : Obligations.NoLoadIsForwardedFrom := by
  intro s t hs h
  refine ⟨?_, fun hr => step_fault_of_noLoadAhead hr hs h⟩
  cases hst : s.stopped with
  | true => rw [step_of_stopped hst] at h; cases h; exact hs
  | false =>
    rcases step_cases (by simp [State.running, hst]) h with ⟨f, rfl⟩ | ⟨_, hend⟩
    · exact hs
    · exact hend.noLoadAhead hs

/-- Settles O30: the declared fields of the micro-op in execute are those of a load exactly for the four load tags. -/
theorem loadUseDetection : Obligations.LoadUseDetection := by
  intro d e
  rw [loadUse_iff]
  constructor
  · rintro ⟨op, rt, he, hw, hd, hr⟩
    obtain ⟨imm9, rn, ht⟩ := (Tag.loads_iff op.tag rt).mp ⟨hw, hd⟩
    obtain ⟨hz, hr⟩ := (d.mem_regs_iff rt).mp hr
    exact ⟨op, imm9, rn, rt, he, ht, hz, hr⟩
  · rintro ⟨op, imm9, rn, rt, he, ht, hz, hr⟩
    obtain ⟨hw, hd⟩ := (Tag.loads_iff op.tag rt).mpr ⟨imm9, rn, ht⟩
    exact ⟨op, rt, he, hw, hd, (d.mem_regs_iff rt).mpr ⟨hz, hr⟩⟩

/-- Settles O32, source by source. -/
theorem forwardedOperandsAreCurrent : Obligations.ForwardedOperandsAreCurrent := by
  intro s op r hc hn hl
  obtain ⟨hrn, hrm, hrt⟩ := (operandsCoherent_of_deex_some hl).mp hc
  rw [noLoadAhead_eq_of_deex_some hl] at hn
  simp only [sourcesNotLoaded, Bool.and_eq_true] at hn
  obtain ⟨⟨hnrn, hnrm⟩, hnrt⟩ := hn
  refine ⟨fun e => ?_, fun e => ?_, fun e => ?_⟩
  · rw [e] at hrn hnrn; exact operandOf_eq_committedReg hrn hnrn
  · rw [e] at hrm hnrm; exact operandOf_eq_committedReg hrm hnrm
  · rw [e] at hrt hnrt; exact operandOf_eq_committedReg hrt hnrt

/-- Settles O33: write-back has committed MEM→WB, and EX→MEM overrides. -/
theorem branchFlagsAreCurrent : Obligations.BranchFlagsAreCurrent := fun _ _ h => branchFlags_of_writeBack h

/-- Settles O31, by the source that supplies the value. -/
theorem forwardingNetwork : Obligations.ForwardingNetwork := by
  intro L r v d op
  refine ⟨fwdVal_zeroReg L v, fun hz a hx hd => ⟨fun hk => ?exmemLoad, fun hk => ?exmem⟩,
    fun hz hwx b hm hd => ⟨fun hk => ?memwbLoad, fun hk => ?memwb⟩, fun hwx hwm => ?unchanged, fun hrn hrm hrt => ?passes,
    fun hl => ?faults, fun hn => ?operand⟩
  case exmemLoad => rw [fwdVal_of_exmem hz hx (writesReg_of_dst (by simp [hk]) hd), if_pos hk]
  case exmem => rw [fwdVal_of_exmem hz hx (writesReg_of_dst (by simp [hk]) hd), if_neg (by simp [hk])]
  case memwbLoad => rw [fwdVal_of_not_exmem hz hwx, fwdFromMemwb_of_dst hm (by simp [hk]) hd, supplied, hk]
  case memwb => rw [fwdVal_of_not_exmem hz hwx, fwdFromMemwb_of_dst hm (by simp [hk]) hd, supplied, hk]
  case unchanged => exact fwdVal_of_not_writesReg hwx hwm v
  case passes => simp [forward_eq, sourcesNotLoaded, hrn, hrm, hrt]
  case faults => rcases hl with h | h | h <;> simp [forward_eq, sourcesNotLoaded, h]
  case operand => rw [fwdVal_eq, if_pos hn]
end

section
/-! SUPPORT. PROOFS of the branch predictor family (spec/42_branch_predictor.md): the indices (R211, R212), the prediction
(R213), the counter and the history (R217, R218), and the cycle in which a branch resolves (R219 to R225). -/

namespace Sys2Proof.Machine

/-! ### The indices -/

/-- The instruction address without its two low bits, bit by bit. -/
theorem testBit_div_four (pc : Word) (k : Nat) : (pc.toNat / 4).testBit k = pc.getLsbD (k + 2) := by
  rw [show (4 : Nat) = 2 ^ 2 from rfl, Nat.testBit_div_two_pow, BitVec.testBit_toNat]

theorem testBit_btbIndex (c : Config) (pc : Word) {k : Nat} (hk : k < c.btbBits) :
    (btbIndex c pc).testBit k = pc.getLsbD (k + 2) := by
  rw [btbIndex, Nat.testBit_mod_two_pow, testBit_div_four]
  simp [hk]

theorem testBit_phtIndex (c : Config) (pc : Word) (ghr : Nat) {k : Nat} (hk : k < c.ghrBits) :
    (phtIndex c pc ghr).testBit k = (pc.getLsbD (k + 2) ^^ ghr.testBit k) := by
  rw [phtIndex, Nat.testBit_xor, Nat.testBit_mod_two_pow, testBit_div_four]
  simp [hk]

/-! ### The prediction -/

/-- A matching entry predicts its target where it is unconditional or its counter is at least 2, and fall-through
otherwise (R213). -/
theorem predict_of_hit {c : Config} {p : Predictor} {pc : Word} (hv : (p.entry (btbIndex c pc)).valid = true)
    (ht : (p.entry (btbIndex c pc)).tag = pc) :
    predict c p pc =
      ⟨if (p.entry (btbIndex c pc)).cond = false ∨ 2 ≤ (p.counter (phtIndex c pc p.ghr)).toNat then
          (p.entry (btbIndex c pc)).target
        else pc + 4#64, false, phtIndex c pc p.ghr⟩ := by
  have hhit : ((p.entry (btbIndex c pc)).valid && (p.entry (btbIndex c pc)).tag == pc) = true := by simp [hv, ht]
  rw [predict, if_pos hhit]
  simp only [Bool.or_eq_true, Bool.not_eq_true', decide_eq_true_eq]
  split <;> rfl

/-- Without a matching entry the prediction is fall-through, with the miss bit (R213). -/
theorem predict_of_miss {c : Config} {p : Predictor} {pc : Word}
    (h : ¬ ((p.entry (btbIndex c pc)).valid = true ∧ (p.entry (btbIndex c pc)).tag = pc)) :
    predict c p pc = ⟨pc + 4#64, true, phtIndex c pc p.ghr⟩ := by
  have hmiss : ¬ ((p.entry (btbIndex c pc)).valid && (p.entry (btbIndex c pc)).tag == pc) = true := by simpa using h
  rw [predict, if_neg hmiss]

/-! ### The counter and the history -/

/-- A taken branch counts up to 3 (R217). -/
theorem bump_true_toNat (k : Counter) : (bump k true).toNat = min (k.toNat + 1) 3 := by
  by_cases h : k = 3#2
  · subst h; rfl
  · have hk : k.toNat ≠ 3 := fun e => h (BitVec.eq_of_toNat_eq e)
    have hlt := k.isLt
    simp only [bump, h, if_true, if_false, BitVec.toNat_add, BitVec.toNat_ofNat]
    omega

/-- A branch not taken counts down to 0 (R217). -/
theorem bump_false_toNat (k : Counter) : (bump k false).toNat = k.toNat - 1 := by
  by_cases h : k = 0#2
  · subst h; rfl
  · have hk : k.toNat ≠ 0 := fun e => h (BitVec.eq_of_toNat_eq e)
    have hlt := k.isLt
    simp only [bump, h, Bool.false_eq_true, if_false, BitVec.toNat_sub, BitVec.toNat_ofNat]
    omega

theorem bump_toNat (k : Counter) (taken : Bool) :
    (bump k taken).toNat = if taken = true then min (k.toNat + 1) 3 else k.toNat - 1 := by
  cases taken with
  | true => exact bump_true_toNat k
  | false => exact bump_false_toNat k

/-- The history shifts left and takes the outcome as its lowest bit (R218). -/
theorem shiftHistory_eq (c : Config) (ghr : Nat) (taken : Bool) :
    shiftHistory c ghr taken = ((ghr <<< 1) ||| taken.toNat) % 2 ^ c.ghrBits := by
  rw [shiftHistory, ← Nat.shiftLeft_add_eq_or_of_lt (by cases taken <;> decide), Nat.shiftLeft_eq, pow_one, mul_comm]

/-! ### Training -/

/-- A counter after the training of a branch: its own moves with the outcome, if it is conditional, and no other does
(R217). -/
theorem counter_train (c : Config) (p : Predictor) (cond : Bool) (o : MicroOp) (j : Nat) :
    ((p.apply (predUpdate c p cond o)).counter j).toNat =
      if cond = true ∧ j = o.phtIdx then
        (if o.taken = true then min ((p.counter j).toNat + 1) 3 else (p.counter j).toNat - 1)
      else (p.counter j).toNat := by
  rw [Predictor.counter_apply]
  cases cond with
  | false => simp [predUpdate]
  | true =>
    by_cases hj : j = o.phtIdx
    · simp [predUpdate, hj, bump_toNat]
    · simp [predUpdate, hj]

/-- The history after the training of a branch: a conditional one shifts its outcome in (R218). -/
theorem ghr_train (c : Config) (p : Predictor) (cond : Bool) (o : MicroOp) :
    (p.apply (predUpdate c p cond o)).ghr =
      if cond = true then ((p.ghr <<< 1) ||| o.taken.toNat) % 2 ^ c.ghrBits else p.ghr := by
  cases cond with
  | false => rfl
  | true => exact shiftHistory_eq c p.ghr o.taken

/-! ### The branch in execute -/

theorem branchInExecute_iff (s : State) (op : MicroOp) (c : Bool) :
    s.branchInExecute = some (op, c) ↔
      ∃ i, s.prev.deex = some op ∧ op.tag = .instr i ∧ branchKind i = some c := by
  refine ⟨fun h => ?_, fun ⟨i, hl, ht, hb⟩ => branchInExecute_of_branch hl ht hb⟩
  unfold State.branchInExecute at h
  split at h
  · cases h
  · rename_i op' hl
    split at h
    · cases h
    · rename_i i ht
      obtain ⟨c', hb, e⟩ := Option.map_eq_some_iff.mp h
      cases e
      exact ⟨i, hl, ht, hb⟩

/-- A resolved PC in execute is that of a branch there. -/
theorem branch_of_resolvedInExecute {s : State} {next : Word} (h : s.resolvedInExecute = some next) :
    ∃ op i c, s.prev.deex = some op ∧ op.tag = .instr i ∧ branchKind i = some c := by
  unfold State.resolvedInExecute at h
  split at h
  · cases h
  · rename_i op hl
    split at h
    · cases h
    · rename_i i ht
      obtain ⟨c, hb, _⟩ := Option.map_eq_some_iff.mp h
      exact ⟨op, i, c, hl, ht, hb⟩

/-- Execute keeps of a branch what fetch and decode recorded: its tag, its address and its prediction (R140, R214). -/
structure SameBranch (op o : MicroOp) : Prop where
  tag : o.tag = op.tag
  pc : o.pc = op.pc
  predPc : o.predPc = op.predPc
  phtIdx : o.phtIdx = op.phtIdx

/-- Inside a cycle from `s`, `m` carries the report of the branch `op` of DE→EX, of class `c`, resolved to the micro-op `o`
(R140, R220, R223). -/
structure Resolved (s m : State) (op o : MicroOp) (c : Bool) : Prop where
  keeps : Keeps s.atCycleStart m
  same : SameBranch op o
  exmem : m.cur.exmem = some o
  squash : m.ctl.clearDecode = (op.predPc != resolvedPc o)
  resolved : m.ctl.resolved = some (resolvedPc o)
  upd : m.ctl.upd = some (predUpdate s.cfg s.bp c o)

/-- Execute of a branch that raises no fault reports it. -/
theorem executeStage_resolves {s m m' : State} {op : MicroOp} {c : Bool} (k : Keeps s.atCycleStart m)
    (hb : s.branchInExecute = some (op, c)) (h : executeStage m = .next m') (hf : m'.fault = none) :
    ∃ o, Resolved s m' op o c := by
  obtain ⟨i, hl, ht, hk⟩ := (branchInExecute_iff s op c).mp hb
  have hl' : m.prev.deex = some op := (congrArg Latches.deex k.prev).trans hl
  have keeps := k.trans (executeStage_frame h hf).1
  obtain ⟨target, taken, he⟩ := exec_execute_branch (s := m.atStage .ex) (op := op) rfl hl' hk
  rw [executeStage_of_tag hl', ht, runTag, he] at h
  rcases exBranch_next h with ⟨f, rfl⟩ | ⟨o, o', hfwd, ho', _, rfl⟩
  · cases hf
  · obtain ⟨a, b, d, _, _, _, ho⟩ := forward_ok hfwd
    have same : SameBranch op o' := ⟨by rw [ho', ho], by rw [ho', ho], by rw [ho', ho], by rw [ho', ho]⟩
    have hcfg : m.cfg = s.cfg := k.cfg
    have hbp : m.bp = s.bp := k.bp
    exact ⟨o', keeps, same, rfl, congrArg (· != resolvedPc o') same.predPc, rfl, by simp [State.putResolved, hcfg, hbp]⟩

/-- Decode leaves the report as it is. -/
theorem Resolved.decode {s m m' : State} {op o : MicroOp} {c : Bool} (r : Resolved s m op o c)
    (h : decodeStage m = .next m') (hf : m'.fault = none) : Resolved s m' op o c := by
  obtain ⟨k, _, _, _, hcur, hctl, _⟩ := decodeStage_frame h hf
  exact ⟨r.keeps.trans k, r.same, by rw [hcur]; exact r.exmem, by rw [hctl]; exact r.squash, by rw [hctl]; exact r.resolved,
    by rw [hctl]; exact r.upd⟩

/-! ### The cycle in which a branch resolves -/

/-- What a squash to `next` does to the front end (R142, R224, R225). -/
structure Squashed (s t : State) (next : Word) : Prop where
  pc : t.pc = next
  ifde : t.prev.ifde = none
  deex : t.prev.deex = none
  halt : t.halt = s.halt
  squashes : t.squashes = s.squashes + 1#64

theorem squashMux_squashed {s m : State} {next : Word} (k : Keeps s.atCycleStart m) (hh : m.halt = s.halt)
    (hr : m.ctl.resolved = some next) : Squashed s (endOfCycle (squashMux m)) next := by
  obtain ⟨_, _, _, _, _, hhalt, _, hsquashes, _, _, hcur, hctl⟩ := squashMux_frame m
  exact ⟨by rw [endOfCycle_pc, hctl, hr]; rfl, by rw [endOfCycle_prev, hcur], by rw [endOfCycle_prev, hcur],
    hhalt.trans hh, hsquashes.trans (congrArg (· + 1#64) k.squashes)⟩

/-- The cycle from `s` to `t` has resolved the branch `op` to `o`: `o` has moved on to EX→MEM, the predictor is trained by
it, and the cycle has squashed where the prediction was wrong and only there (R140, R142, R219 to R225). -/
structure ResolvesTo (s t : State) (op o : MicroOp) (c : Bool) : Prop where
  same : SameBranch op o
  exmem : t.prev.exmem = some o
  trained : t.bp = s.bp.apply (predUpdate s.cfg s.bp c o)
  mispredicted : op.predPc ≠ resolvedPc o → Squashed s t (resolvedPc o)
  predicted : op.predPc = resolvedPc o → t.squashes = s.squashes

/-- The end of a cycle that did not squash: the branch was predicted right. -/
theorem Resolved.unsquashed {s m t : State} {op o : MicroOp} {c : Bool} (r : Resolved s m op o c)
    (hc : m.ctl.clearDecode = false) (hx : t.prev.exmem = m.cur.exmem)
    (hbp : t.bp = m.bp.apply (predUpdate s.cfg s.bp c o)) (hs : t.squashes = m.squashes) : ResolvesTo s t op o c where
  same := r.same
  exmem := hx.trans r.exmem
  trained := by rw [hbp, r.keeps.bp]; rfl
  mispredicted hne := by
    have hsquash := r.squash
    rw [hc] at hsquash
    simp [hne] at hsquash
  predicted _ := hs.trans r.keeps.squashes

/-- The end of a cycle that squashed: the branch was predicted wrong. -/
theorem Resolved.squashed {s m : State} {op o : MicroOp} {c : Bool} (r : Resolved s m op o c) (hh : m.halt = s.halt)
    (hc : m.ctl.clearDecode = true) : ResolvesTo s (endOfCycle (squashMux m)) op o c := by
  obtain ⟨_, _, hbp, _, _, _, _, _, _, _, hcur, hctl⟩ := squashMux_frame m
  exact {
    same := r.same
    exmem := by rw [endOfCycle_prev, hcur]; exact r.exmem
    trained := by
      rw [endOfCycle_bp_some (squashMux m) (u := predUpdate s.cfg s.bp c o) (by rw [hctl]; exact r.upd), hbp, r.keeps.bp]
      rfl
    mispredicted := fun _ => squashMux_squashed r.keeps hh r.resolved
    predicted := fun heq => by
      have hsquash := r.squash
      rw [hc] at hsquash
      simp [heq] at hsquash }

/-- A cycle without a fault whose memory stage passes resolves the branch in execute, whichever way it ends. -/
theorem CycleEnd.resolves {s t : State} {op : MicroOp} {c : Bool} (h : CycleEnd s t) (hd : s.memoryOutcome = .done)
    (hb : s.branchInExecute = some (op, c)) : ∃ o, ResolvesTo s t op o c := by
  cases h with
  | freeze m1 m2 l hwb _ hmem h2 hs _ _ =>
    obtain ⟨_, _, ⟨_, hctl⟩ | ⟨hw, _⟩⟩ := memoryStage_signals hwb hmem h2
    · rw [hctl] at hs; cases hs
    · rw [hd] at hw; cases hw
  | squash m1 m2 m3 hwb _ hmem h2 _ hex h3 hc ht =>
    subst ht
    obtain ⟨k2, _⟩ := memoryStage_keeps_start hwb hmem h2
    obtain ⟨o, r⟩ := executeStage_resolves k2 hb hex h3
    obtain ⟨hhalt, _⟩ := executeStage_keeps_halt hwb hmem h2 hex h3
    exact ⟨o, r.squashed hhalt hc⟩
  | stall m1 m2 m3 m4 hwb _ hmem h2 _ hex h3 hc hde h4 _ ht =>
    subst ht
    obtain ⟨k2, _⟩ := memoryStage_keeps_start hwb hmem h2
    obtain ⟨o, r3⟩ := executeStage_resolves k2 hb hex h3
    have r := r3.decode hde h4
    exact ⟨o, r.unsquashed (r.squash.trans (r3.squash.symm.trans hc)) rfl (endOfCycle_bp_some (stallMux m4) r.upd) rfl⟩
  | fetch m1 m2 m3 m4 hwb _ hmem h2 _ hex h3 hc hde h4 _ ht =>
    subst ht
    obtain ⟨k2, _⟩ := memoryStage_keeps_start hwb hmem h2
    obtain ⟨o, r3⟩ := executeStage_resolves k2 hb hex h3
    have r := r3.decode hde h4
    obtain ⟨_, _, _, _, hbp, _, _, _, _, hsquashes, _, hcur, hctl⟩ := fetchStage_frame m4
    have htrained := endOfCycle_bp_some (fetchStage m4) (u := predUpdate s.cfg s.bp c o) (by rw [hctl]; exact r.upd)
    exact ⟨o, r.unsquashed (r.squash.trans (r3.squash.symm.trans hc)) (by rw [endOfCycle_prev, hcur])
      (by rw [htrained, hbp]) hsquashes⟩

/-- What `squashesTo` says of the branch in execute: it resolves to the multiple of 4 `next`, which was not predicted. -/
theorem squashesTo_iff (s : State) (next : Word) :
    s.squashesTo next = true ↔
      s.resolvedInExecute = some next ∧ s.predictedInExecute ≠ some next ∧ aligned4 next = true := by
  simp only [State.squashesTo, Bool.and_eq_true, decide_eq_true_eq, and_assoc]

/-- Execute of a branch that was predicted wrong, to a multiple of 4, demands the squash with the resolved PC (R140,
R223). -/
theorem executeStage_of_squashesTo {s m : State} {next : Word} (hprev : m.prev = s.prev)
    (hflags : (branchZ m, branchN m) = s.committedFlags) (hn : s.noLoadAhead = true) (hq : s.squashesTo next = true) :
    ∃ m', executeStage m = .next m' ∧ m'.fault = m.fault ∧ m'.ctl.clearDecode = true ∧ m'.ctl.resolved = some next := by
  obtain ⟨hres, hpred, haligned⟩ := (squashesTo_iff s next).mp hq
  obtain ⟨op, i, c, hl, ht, hb⟩ := branch_of_resolvedInExecute hres
  have hn' : m.noLoadAhead = true := by simpa only [State.noLoadAhead, hprev] using hn
  have hnext : branchNext m i op = next :=
    Option.some_inj.mp ((resolvedInExecute_eq hprev hflags hl ht hb).symm.trans hres)
  have hne : op.predPc ≠ next := by simpa [State.predictedInExecute, hl] using hpred
  obtain ⟨o, he⟩ := executeStage_branch (s := m) (by rw [hprev, hl]) ht hb
  rw [hnext, if_pos hn', if_pos haligned] at he
  exact ⟨_, he, rfl, by simp [State.putResolved, hne], rfl⟩

/-- A mis-prediction to a multiple of 4 squashes, and no micro-op that it discards can fault the cycle: decode does not run
(R142, R343). -/
theorem step_of_squashesTo {s : State} {next : Word} (hr : s.running = true) (hd : s.memoryOutcome = .done)
    (hn : s.noLoadAhead = true) (hq : s.squashesTo next = true) :
    ∃ t, step s = .next t ∧ t.fault = none ∧ Squashed s t next := by
  obtain ⟨m, hm, hhalt, hflags, hstep⟩ := step_of_memoryDone hr hd
  obtain ⟨m', hex, hfault, hc, hres⟩ := executeStage_of_squashesTo (s := s) hm.keeps.prev hflags hn hq
  have hf : m'.fault = none := hfault.trans hm.fault
  obtain ⟨k, _, _, _, hhalt', _⟩ := executeStage_frame hex hf
  obtain ⟨_, _, _, _, _, _, _, _, hfault', _⟩ := squashMux_frame m'
  have ht : (endOfCycle (squashMux m')).fault = none := hfault'.trans hf
  refine ⟨_, ?_, ht, squashMux_squashed (hm.keeps.trans k) (hhalt'.trans hhalt) hres⟩
  rw [hstep, hex, andThen_ok hf, afterExecute, if_pos hc]
  simp only [settle, ht]

end Sys2Proof.Machine

open Sys2Proof.Machine

/-- Settles O43: a mis-prediction reaches the squash, and every end of the cycle trains by the branch alone. -/
theorem branchResolutionCycle : Obligations.BranchResolutionCycle := by
  refine ⟨fun s next hr hd hn hq => ?_, fun s t op c hr hd hb h hf => ?_⟩
  · obtain ⟨t, hstep, hf, q⟩ := step_of_squashesTo hr hd hn hq
    exact ⟨t, hstep, hf, q.pc, q.ifde, q.deex, q.halt, q.squashes⟩
  · obtain ⟨o, r⟩ := (step_ends hr h hf).resolves hd hb
    refine ⟨o, r.exmem, r.same.tag, r.same.pc, r.same.predPc, fun j => ?entry, fun j => ?counter, ?history,
      fun hne => ?squash, r.predicted⟩
    case entry => rw [r.trained, Predictor.entry_apply, ← r.same.pc]; rfl
    case counter => rw [r.trained, counter_train, r.same.phtIdx]
    case history => rw [r.trained, ghr_train]
    case squash =>
      have q := r.mispredicted hne
      exact ⟨q.pc, q.ifde, q.deex, q.halt, q.squashes⟩

/-- Settles O35: the XOR and the slices, bit by bit. -/
theorem predictorIndices : Obligations.PredictorIndices :=
  ⟨fun c pc ghr h => ⟨phtIndex_lt pc h, fun _ hk => testBit_phtIndex c pc ghr hk⟩,
    fun c pc => ⟨btbIndex_lt c pc, fun _ hk => testBit_btbIndex c pc hk⟩, by decide⟩

/-- Settles O34, by the BTB entry at the index: it matches, or it does not. -/
theorem predictionRule : Obligations.PredictionRule := by
  intro c p pc
  refine ⟨predict_idx c p pc, fun hv ht => ?hit, fun hm => ?miss⟩
  case hit =>
    rw [predict_of_hit hv ht]
    exact ⟨rfl, fun hu => if_pos (.inl hu), fun _ hk => if_pos (.inr hk),
      fun hc hk => if_neg (by simpa [hc] using hk)⟩
  case miss => rw [predict_of_miss hm]; exact ⟨rfl, rfl⟩

/-- Settles O36, by the outcome. -/
theorem counterAndHistoryUpdate : Obligations.CounterAndHistoryUpdate :=
  ⟨fun k => ⟨bump_true_toNat k, bump_false_toNat k⟩, shiftHistory_eq⟩
end

section
/-! SUPPORT. PROOFS of the cache family (spec/43_cache.md): touch, victim and installation (R244, R248), the access and the
fill engine (R243 to R251), and the two invariants of R242 and R243 through a cycle. -/

namespace Sys2Proof.Machine

/-! ### Finding a way -/

theorem lookup_some {t w : Nat} {ws : List Way} (h : lookup t ws = some w) :
    ∃ v, ws[w]? = some v ∧ v.valid = true ∧ v.tag = t := by
  obtain ⟨v, hv, hp, _⟩ := findWay_some h
  simp only [Bool.and_eq_true, beq_iff_eq] at hp
  exact ⟨v, hv, hp⟩

/-- A lookup misses where no valid way holds the tag (R243). -/
theorem lookup_eq_none_iff (t : Nat) (ws : List Way) :
    lookup t ws = none ↔ ∀ v ∈ ws, ¬ (v.valid = true ∧ v.tag = t) := by
  constructor
  · intro h v hv
    simpa using findWay_none h v hv
  · intro h
    cases hl : lookup t ws with
    | none => rfl
    | some w =>
      obtain ⟨v, hv, hp⟩ := lookup_some hl
      exact absurd hp (h v (List.mem_of_getElem? hv))

/-! ### Touch (R244) -/

theorem oldAge_of_valid {g : CacheGeometry} {ws : List Way} {w : Nat} {v : Way} (hv : ws[w]? = some v)
    (h : v.valid = true) : oldAge g ws w = v.age := by
  simp [oldAge, hv, h]

theorem oldAge_of_invalid {g : CacheGeometry} {ws : List Way} {w : Nat} {v : Way} (hv : ws[w]? = some v)
    (h : v.valid = false) : oldAge g ws w = g.ways := by
  simp [oldAge, hv, h]

/-- The touched way. -/
theorem touch_getElem?_self (g : CacheGeometry) (t : Nat) {ws : List Way} {w : Nat} {v : Way} (hv : ws[w]? = some v) :
    (touch g t ws w)[w]? = some ⟨true, t, 0⟩ := by
  simp [touch_getElem?, hv]

/-- Any other way. -/
theorem touch_getElem?_ne (g : CacheGeometry) (t : Nat) {ws : List Way} {w j : Nat} {u : Way} (hj : j ≠ w)
    (hu : ws[j]? = some u) :
    (touch g t ws w)[j]? =
      some (if u.valid = true ∧ u.age < oldAge g ws w then { u with age := u.age + 1 } else u) := by
  simp [touch_getElem?, hu, hj]

/-- All that a way of a touched set can be: the touched way, or another one, older by one where it was valid and younger. -/
theorem touch_cases {g : CacheGeometry} {t : Nat} {ws : List Way} {w j : Nat} {u' : Way}
    (h : (touch g t ws w)[j]? = some u') :
    (j = w ∧ u' = ⟨true, t, 0⟩) ∨
      (j ≠ w ∧ ∃ u, ws[j]? = some u ∧ u'.valid = u.valid ∧ u'.tag = u.tag ∧
        u'.age = if u.valid = true ∧ u.age < oldAge g ws w then u.age + 1 else u.age) := by
  obtain ⟨u, hu, e⟩ := Option.map_eq_some_iff.mp (touch_getElem? g t ws w j ▸ h)
  by_cases hj : j = w
  · rw [if_pos hj] at e
    exact .inl ⟨hj, e.symm⟩
  · rw [touch_getElem?_ne g t hj hu] at h
    cases h
    refine .inr ⟨hj, u, hu, ?_⟩
    split <;> exact ⟨rfl, rfl, rfl⟩

theorem touch_map_valid (g : CacheGeometry) (t : Nat) (ws : List Way) (w : Nat) :
    (touch g t ws w).map (·.valid) = (ws.map (·.valid)).set w true := by
  refine List.ext_getElem? fun j => ?_
  rw [List.getElem?_map, touch_getElem?, List.getElem?_set, List.length_map, List.getElem?_map, Option.map_map]
  by_cases hj : j = w
  · subst hj
    cases hu : ws[j]? with
    | none => simp [List.getElem?_eq_none_iff.mp hu]
    | some u => simp [(List.getElem?_eq_some_iff.mp hu).1]
  · rw [if_neg (Ne.symm hj)]
    congr 1
    funext u
    simp only [Function.comp_apply, if_neg hj]
    split <;> rfl

/-- A touch makes its way valid and changes no other valid bit. -/
theorem countP_valid_touch (g : CacheGeometry) (t : Nat) {ws : List Way} {w : Nat} {v : Way} (hv : ws[w]? = some v) :
    (touch g t ws w).countP (·.valid) = ws.countP (·.valid) + if v.valid = true then 0 else 1 := by
  have hcount (l : List Way) : l.countP (·.valid) = (l.map (·.valid)).countP id := by
    rw [List.countP_map]
    rfl
  obtain ⟨hw, rfl⟩ := List.getElem?_eq_some_iff.mp hv
  have hpos : ws[w].valid = true → 0 < ws.countP (·.valid) := fun h =>
    List.countP_pos_iff.mpr ⟨_, List.getElem_mem hw, h⟩
  rw [hcount (touch g t ws w), touch_map_valid, List.countP_set (by simpa using hw), ← hcount ws, List.getElem_map]
  cases h : ws[w].valid with
  | true => have := hpos h; simp; omega
  | false => simp

/-! ### Distinct fields of the valid ways -/

/-- No two valid ways of a set agree in the field `f`. -/
def ValidDistinct (f : Way → Nat) (ws : List Way) : Prop :=
  ∀ (i j : Nat) (u v : Way), ws[i]? = some u → ws[j]? = some v → u.valid = true → v.valid = true → f u = f v → i = j

/-- The executable test of the two invariants, by the numbers of the ways. -/
theorem nodup_valid_iff (f : Way → Nat) (ws : List Way) :
    ((ws.filter (·.valid)).map f).Nodup ↔ ValidDistinct f ws := by
  rw [List.Nodup, List.pairwise_map, List.pairwise_filter, List.pairwise_iff_getElem]
  constructor
  · intro h i j u v hu hv huv hvv hf
    obtain ⟨hi, rfl⟩ := List.getElem?_eq_some_iff.mp hu
    obtain ⟨hj, rfl⟩ := List.getElem?_eq_some_iff.mp hv
    rcases Nat.lt_trichotomy i j with hlt | heq | hgt
    · exact absurd hf (h i j hi hj hlt huv hvv)
    · exact heq
    · exact absurd hf.symm (h j i hj hi hgt hvv huv)
  · intro h i j hi hj hlt hu hv hf
    exact hlt.ne (h i j _ _ (List.getElem?_eq_getElem hi) (List.getElem?_eq_getElem hj) hu hv hf)

/-- A touch keeps the tags distinct where no other valid way holds the new tag. -/
theorem ValidDistinct.touch_tag {g : CacheGeometry} {t : Nat} {ws : List Way} {w : Nat} (h : ValidDistinct (·.tag) ws)
    (hne : ∀ (j : Nat) (u : Way), j ≠ w → ws[j]? = some u → u.valid = true → u.tag ≠ t) :
    ValidDistinct (·.tag) (touch g t ws w) := by
  intro i j u' v' hu' hv' hu hv ht
  rcases touch_cases hu' with ⟨rfl, rfl⟩ | ⟨hi, u, hui, huv, hut, _⟩ <;>
    rcases touch_cases hv' with ⟨rfl, rfl⟩ | ⟨hj, v, hvj, hvv, hvt, _⟩
  · rfl
  · exact absurd (hvt.symm.trans ht.symm) (hne j v hj hvj (hvv ▸ hv))
  · exact absurd (hut.symm.trans ht) (hne i u hi hui (huv ▸ hu))
  · exact h i j u v hui hvj (huv ▸ hu) (hvv ▸ hv) (hut.symm.trans (ht.trans hvt))

/-- A touch keeps the ages distinct where no other valid way has the age that the touched way gives up: the younger ways
move up by one, the last of them into that age. -/
theorem ValidDistinct.touch_age {g : CacheGeometry} {t : Nat} {ws : List Way} {w : Nat} (h : ValidDistinct (·.age) ws)
    (hne : ∀ (j : Nat) (u : Way), j ≠ w → ws[j]? = some u → u.valid = true → u.age ≠ oldAge g ws w) :
    ValidDistinct (·.age) (touch g t ws w) := by
  have hpos (j : Nat) (u u' : Way) (hj : j ≠ w) (hu : ws[j]? = some u) (hv : u.valid = true)
      (ha : u'.age = if u.valid = true ∧ u.age < oldAge g ws w then u.age + 1 else u.age) : u'.age ≠ 0 := by
    have := hne j u hj hu hv
    rw [ha]
    split
    · omega
    · rename_i hold; simp only [hv, true_and] at hold; omega
  intro i j u' v' hu' hv' hu hv (ha : u'.age = v'.age)
  rcases touch_cases hu' with ⟨rfl, rfl⟩ | ⟨hi, u, hui, huv, _, hua⟩ <;>
    rcases touch_cases hv' with ⟨rfl, rfl⟩ | ⟨hj, v, hvj, hvv, _, hva⟩
  · rfl
  · exact absurd ha.symm (hpos j v v' hj hvj (hvv ▸ hv) hva)
  · exact absurd ha (hpos i u u' hi hui (huv ▸ hu) hua)
  · have hu1 : u.valid = true := huv ▸ hu
    have hv1 : v.valid = true := hvv ▸ hv
    have hold : u.age = v.age := by
      have h1 := hne i u hi hui hu1
      have h2 := hne j v hj hvj hv1
      simp only [hu1, true_and] at hua
      simp only [hv1, true_and] at hva
      split at hua <;> split at hva <;> omega
    exact h i j u v hui hvj hu1 hv1 hold

/-! ### The recency invariant of a set (R242) -/

theorem validAges_length (ws : List Way) : (validAges ws).length = ws.countP (·.valid) := by
  rw [validAges, List.length_map, List.countP_eq_length_filter]

theorem setLru_iff (g : CacheGeometry) (ws : List Way) :
    setLru g ws = true ↔ ws.length = g.ways ∧ ValidDistinct (·.age) ws ∧
      ∀ u ∈ ws, u.valid = true → u.age < ws.countP (·.valid) := by
  simp only [setLru, Bool.and_eq_true, decide_eq_true_eq, List.all_eq_true, validAges_length, and_assoc]
  rw [validAges, nodup_valid_iff]
  simp only [List.forall_mem_map, List.mem_filter, and_imp]

theorem setLru_emptySet (g : CacheGeometry) : setLru g (emptySet g) = true := by
  simp [setLru, validAges, emptySet, Way.invalid]

/-- A valid way's age is below `C_WAYS`. -/
theorem age_lt_ways {g : CacheGeometry} {ws : List Way} (h : setLru g ws = true) {u : Way} (hu : u ∈ ws)
    (hv : u.valid = true) : u.age < g.ways := by
  obtain ⟨hlen, _, hlt⟩ := (setLru_iff g ws).mp h
  have hk : ws.countP (·.valid) ≤ ws.length := List.countP_le_length
  have := hlt u hu hv
  omega

/-- No other valid way has the age that a touched way gives up: its own age, or `C_WAYS` where it was invalid. -/
theorem age_ne_oldAge {g : CacheGeometry} {ws : List Way} (h : setLru g ws = true) {w : Nat} {v : Way}
    (hv : ws[w]? = some v) {j : Nat} {u : Way} (hj : j ≠ w) (hu : ws[j]? = some u) (huv : u.valid = true) :
    u.age ≠ oldAge g ws w := by
  obtain ⟨_, hdistinct, _⟩ := (setLru_iff g ws).mp h
  cases hvv : v.valid with
  | true =>
    rw [oldAge_of_valid hv hvv]
    exact fun e => hj (hdistinct j w u v hu hv huv hvv e)
  | false =>
    rw [oldAge_of_invalid hv hvv]
    exact (age_lt_ways h (List.mem_of_getElem? hu) huv).ne

/-- A touch of any way of a set keeps the recency invariant. -/
theorem setLru_touch {g : CacheGeometry} {ws : List Way} (h : setLru g ws = true) (t : Nat) {w : Nat} {v : Way}
    (hv : ws[w]? = some v) : setLru g (touch g t ws w) = true := by
  obtain ⟨hlen, hdistinct, hlt⟩ := (setLru_iff g ws).mp h
  refine (setLru_iff g _).mpr ⟨by rw [touch_length, hlen],
    hdistinct.touch_age fun _ _ hj hu huv => age_ne_oldAge h hv hj hu huv, fun u' hu' hvalid => ?_⟩
  have hcount := countP_valid_touch g t hv
  obtain ⟨j, hj⟩ := List.mem_iff_getElem?.mp hu'
  rcases touch_cases hj with ⟨_, rfl⟩ | ⟨_, u, hu, huv, _, hage⟩
  · exact List.countP_pos_iff.mpr ⟨_, hu', rfl⟩
  · have hu1 : u.valid = true := huv ▸ hvalid
    have hult := hlt u (List.mem_of_getElem? hu) hu1
    cases hvv : v.valid with
    | true =>
      have hvlt := hlt v (List.mem_of_getElem? hv) hvv
      rw [oldAge_of_valid hv hvv] at hage
      rw [hcount, hage, hvv]
      split <;> simp <;> omega
    | false =>
      rw [hcount, hage, hvv]
      split <;> simp <;> omega

/-! ### The victim (R248) -/

theorem age_le_maxAge {ws : List Way} {u : Way} (h : u ∈ ws) : u.age ≤ maxAge ws := by
  induction ws with
  | nil => cases h
  | cons w ws ih =>
    rcases List.mem_cons.mp h with rfl | h
    · exact Nat.le_max_left _ _
    · exact (ih h).trans (Nat.le_max_right _ _)

theorem exists_age_eq_maxAge {ws : List Way} (h : ws ≠ []) : ∃ u ∈ ws, u.age = maxAge ws := by
  induction ws with
  | nil => exact absurd rfl h
  | cons w ws ih =>
    rcases Nat.le_total (maxAge ws) w.age with hle | hle
    · exact ⟨w, List.mem_cons_self, (Nat.max_eq_left hle).symm⟩
    · cases ws with
      | nil => exact ⟨w, List.mem_cons_self, (Nat.max_eq_left (Nat.zero_le _)).symm⟩
      | cons v ws =>
        obtain ⟨u, hu, e⟩ := ih (List.cons_ne_nil _ _)
        exact ⟨u, List.mem_cons_of_mem _ hu, e.trans (Nat.max_eq_right hle).symm⟩

/-- With an invalid way in the set, the victim is the first of them. -/
theorem victim_of_invalid {ws : List Way} (h : ∃ u ∈ ws, u.valid = false) :
    (∃ u, ws[victim ws]? = some u ∧ u.valid = false) ∧ ∀ j < victim ws, ∀ u, ws[j]? = some u → u.valid = true := by
  unfold victim
  split
  · rename_i w hw
    obtain ⟨v, hv, hp, hmin⟩ := findWay_some hw
    exact ⟨⟨v, hv, by simpa using hp⟩, fun j hj u hu => by simpa using hmin j hj u hu⟩
  · rename_i hnone
    obtain ⟨u, hu, hv⟩ := h
    have := findWay_none hnone u hu
    simp [hv] at this

/-- In a full set the victim is a way of the largest age. -/
theorem victim_of_full {ws : List Way} (h : ∀ u ∈ ws, u.valid = true) (hne : ws ≠ []) :
    ∃ u, ws[victim ws]? = some u ∧ u.age = maxAge ws := by
  unfold victim
  split
  · rename_i w hw
    obtain ⟨v, hv, hp, _⟩ := findWay_some hw
    simp [h v (List.mem_of_getElem? hv)] at hp
  · cases hf : findWay (fun w => w.age == maxAge ws) ws with
    | none =>
      obtain ⟨u, hu, e⟩ := exists_age_eq_maxAge hne
      simpa [e] using findWay_none hf u hu
    | some w =>
      obtain ⟨v, hv, hp, _⟩ := findWay_some hf
      exact ⟨v, hv, by simpa using hp⟩

/-- The victim of a set that has ways is one of them. -/
theorem exists_victim {ws : List Way} (h : ws ≠ []) : ∃ v, ws[victim ws]? = some v := by
  by_cases hfull : ∀ u ∈ ws, u.valid = true
  · obtain ⟨v, hv, _⟩ := victim_of_full hfull h
    exact ⟨v, hv⟩
  · obtain ⟨⟨v, hv, _⟩, _⟩ := victim_of_invalid (ws := ws) (by simpa using hfull)
    exact ⟨v, hv⟩

/-- In a full set that meets the recency invariant the ages are `0 .. C_WAYS - 1`, so the largest is `C_WAYS - 1`. -/
theorem maxAge_of_full {g : CacheGeometry} {ws : List Way} (h : setLru g ws = true) (hfull : ∀ u ∈ ws, u.valid = true)
    (hw : 1 ≤ g.ways) : maxAge ws = g.ways - 1 := by
  obtain ⟨hlen, hdistinct, _⟩ := (setLru_iff g ws).mp h
  have hnodup := (nodup_valid_iff (·.age) ws).mpr hdistinct
  rw [List.filter_eq_self.mpr hfull] at hnodup
  have hsub : ws.map (·.age) ⊆ List.range g.ways := by
    intro a ha
    obtain ⟨u, hu, rfl⟩ := List.mem_map.mp ha
    exact List.mem_range.mpr (age_lt_ways h hu (hfull u hu))
  have hperm : (ws.map (·.age)).Perm (List.range g.ways) :=
    (List.subperm_of_subset hnodup hsub).perm_of_length_le (by simp [hlen])
  obtain ⟨u, hu, hage⟩ := List.mem_map.mp (hperm.mem_iff.mpr (List.mem_range.mpr (Nat.sub_lt hw Nat.one_pos)))
  have hle := age_le_maxAge hu
  obtain ⟨v, hv, hmax⟩ := exists_age_eq_maxAge (List.ne_nil_of_mem hu)
  have hlt := age_lt_ways h hv (hfull v hv)
  omega

/-- The victim of a full set is the one way of age `C_WAYS - 1`. -/
theorem age_eq_iff_victim {g : CacheGeometry} {ws : List Way} (h : setLru g ws = true)
    (hfull : ∀ u ∈ ws, u.valid = true) (hw : 1 ≤ g.ways) {j : Nat} {u : Way} (hu : ws[j]? = some u) :
    u.age = g.ways - 1 ↔ j = victim ws := by
  obtain ⟨_, hdistinct, _⟩ := (setLru_iff g ws).mp h
  obtain ⟨v, hv, hage⟩ := victim_of_full hfull (List.ne_nil_of_mem (List.mem_of_getElem? hu))
  rw [← maxAge_of_full h hfull hw, ← hage]
  constructor
  · exact hdistinct j _ u v hu hv (hfull u (List.mem_of_getElem? hu)) (hfull v (List.mem_of_getElem? hv))
  · rintro rfl
    cases hu.symm.trans hv
    rfl

/-- Installing into a set keeps its recency invariant; a set without ways stays as it is. -/
theorem setLru_touch_victim {g : CacheGeometry} {ws : List Way} (h : setLru g ws = true) (t : Nat) :
    setLru g (touch g t ws (victim ws)) = true := by
  by_cases hne : ws = []
  · subst hne
    exact h
  · obtain ⟨v, hv⟩ := exists_victim hne
    exact setLru_touch h t hv

/-! ### Address and access (R241, R243) -/

/-- The block of an address has its set and its tag, whatever the geometry. -/
theorem setIndexOf_tagOf_blockOf (g : CacheGeometry) (a : Nat) :
    setIndexOf g (blockOf g a) = setIndexOf g a ∧ tagOf g (blockOf g a) = tagOf g a := by
  rcases Nat.eq_zero_or_pos g.block with hb | hb
  · simp [setIndexOf, tagOf, blockOf, hb]
  · exact blockOf_index_tag hb a

/-- An access to the block being filled waits and changes nothing (R246). -/
theorem cacheAccess_of_sameBlock (k : CacheKind) {g : CacheGeometry} {c : Cache} {a : Word} {f : Fill}
    (hf : c.fill = some f) (hb : f.block = blockOf g a.toNat) : cacheAccess k g c a = (c, false) := by
  simp [cacheAccess, hf, hb]

/-- A fill of another block makes a data access wait (R250). -/
theorem cacheAccess_data_of_otherBlock {g : CacheGeometry} {c : Cache} {a : Word} {f : Fill} (hf : c.fill = some f)
    (hb : f.block ≠ blockOf g a.toNat) : cacheAccess .data g c a = (c, false) := by
  simp [cacheAccess, hf, hb]

/-- An access with no fill pending is the lookup (R243). -/
theorem cacheAccess_of_idle (k : CacheKind) (g : CacheGeometry) {c : Cache} (a : Word) (hf : c.fill = none) :
    cacheAccess k g c a = cacheLookup g c a.toNat := by
  simp [cacheAccess, hf]

/-- An instruction access cancels the fill of another block (R249). -/
theorem cacheAccess_instruction_of_otherBlock {g : CacheGeometry} {c : Cache} {a : Word} {f : Fill}
    (hf : c.fill = some f) (hb : f.block ≠ blockOf g a.toNat) :
    cacheAccess .instruction g c a = cacheAccess .instruction g { c with fill := none } a := by
  rw [cacheAccess_of_idle .instruction g (c := { c with fill := none }) a rfl]
  simp [cacheAccess, hf, hb]

/-- A lookup that finds a way touches it, and hits (R244). -/
theorem cacheLookup_of_some {g : CacheGeometry} {c : Cache} {a w : Nat}
    (h : lookup (tagOf g a) (setWays g c (setIndexOf g a)) = some w) :
    cacheLookup g c a =
      (c.putWays g (setIndexOf g a) (touch g (tagOf g a) (setWays g c (setIndexOf g a)) w), true) := by
  simp [cacheLookup, h]

/-- A lookup that finds none installs the block at once where the penalty is 0, and starts its fill otherwise (R245,
R251). -/
theorem cacheLookup_of_none {g : CacheGeometry} {c : Cache} {a : Nat}
    (h : lookup (tagOf g a) (setWays g c (setIndexOf g a)) = none) :
    cacheLookup g c a =
      if g.penalty = 0 then (install g c (blockOf g a), true)
      else ({ c with fill := some ⟨blockOf g a, g.penalty⟩ }, false) := by
  simp [cacheLookup, h]

/-! ### The fill engine (R247) -/

/-- A fill in progress, before its last tick. -/
theorem ticks_filling {g : CacheGeometry} {c : Cache} {b r n : Nat} (hf : c.fill = some ⟨b, r⟩) (hn : n < r) :
    ticks g n c = { c with fill := some ⟨b, r - n⟩ } := by
  induction n generalizing c r with
  | zero => rw [Nat.sub_zero, ← hf]; rfl
  | succ n ih =>
    have hleft : r - 1 ≠ 0 := by omega
    have htick : tickFill g c = { c with fill := some ⟨b, r - 1⟩ } := by simp [tickFill, hf, hleft]
    rw [ticks, htick, ih rfl (by omega), Nat.sub_sub, Nat.add_comm 1 n]

/-- The last tick of a fill installs its block and ends it. -/
theorem ticks_filled {g : CacheGeometry} {c : Cache} {b r : Nat} (hf : c.fill = some ⟨b, r + 1⟩) :
    ticks g (r + 1) c = { install g c b with fill := none } := by
  induction r generalizing c with
  | zero => simp [ticks, tickFill, hf]
  | succ r ih =>
    have htick : tickFill g c = { c with fill := some ⟨b, r + 1⟩ } := by simp [tickFill, hf]
    rw [ticks, htick, ih rfl]
    rfl

/-- A block installed into a set that has ways is found there (R243, R248). -/
theorem lookup_install {g : CacheGeometry} {c : Cache} {b : Nat} (h : setWays g c (setIndexOf g b) ≠ []) :
    lookup (tagOf g b) (setWays g (install g c b) (setIndexOf g b)) ≠ none := by
  obtain ⟨v, hv⟩ := exists_victim h
  rw [setWays_install, if_pos rfl]
  intro hnone
  exact (lookup_eq_none_iff _ _).mp hnone _ (List.mem_of_getElem? (touch_getElem?_self g _ hv)) ⟨rfl, rfl⟩

/-! ### Every set of a cache -/

/-- A property of every listed set, and of a set nothing has been installed in, is one of every set. -/
theorem setWays_of_all {g : CacheGeometry} {c : Cache} {q : List Way → Bool} (hempty : q (emptySet g) = true)
    (h : (c.sets.all fun e => q e.2) = true) (i : Nat) : q (setWays g c i) = true := by
  unfold setWays tableGet
  cases hf : tableFind c.sets i with
  | none => exact hempty
  | some ws => exact List.all_eq_true.mp h _ (mem_of_tableFind hf)

/-- Replacing a set keeps a property of every listed set that the new one has. -/
theorem all_putWays {g : CacheGeometry} {c : Cache} {q : List Way → Bool} (h : (c.sets.all fun e => q e.2) = true)
    (i : Nat) {ws : List Way} (hws : q ws = true) : ((c.putWays g i ws).sets.all fun e => q e.2) = true :=
  all_tablePut _ _ _ _ _ h hws

/-! ### The recency invariant of a cache (R242) -/

theorem Cache.lru_setWays {g : CacheGeometry} {c : Cache} (h : c.lru g = true) (i : Nat) :
    setLru g (setWays g c i) = true :=
  setWays_of_all (setLru_emptySet g) h i

theorem Cache.lru_install {g : CacheGeometry} {c : Cache} (h : c.lru g = true) (b : Nat) :
    (install g c b).lru g = true :=
  all_putWays h _ (setLru_touch_victim (lru_setWays h _) _)

theorem Cache.lru_cacheLookup {g : CacheGeometry} {c : Cache} (h : c.lru g = true) (a : Nat) :
    (cacheLookup g c a).1.lru g = true := by
  rcases cacheLookup_cases g c a with ⟨w, hw, e⟩ | ⟨_, _, e⟩ | ⟨_, _, e⟩ <;> rw [e]
  · obtain ⟨v, hv, _⟩ := lookup_some hw
    exact all_putWays h _ (setLru_touch (lru_setWays h _) _ hv)
  · exact lru_install h _
  · exact h

theorem Cache.lru_cacheAccess {k : CacheKind} {g : CacheGeometry} {c : Cache} (h : c.lru g = true) (a : Word) :
    (cacheAccess k g c a).1.lru g = true := by
  rcases cacheAccess_cases k g c a with ⟨_, _, _, e⟩ | ⟨_, e⟩ <;> rw [e]
  · exact h
  · exact lru_cacheLookup (c := { c with fill := none }) h a.toNat

theorem Cache.lru_tickFill {g : CacheGeometry} {c : Cache} (h : c.lru g = true) : (tickFill g c).lru g = true := by
  rcases tickFill_cases g c with ⟨_, e⟩ | ⟨f, _, _, e⟩ | ⟨f, _, _, e⟩ <;> rw [e]
  · exact h
  · exact lru_install h f.block
  · exact h

/-! ### The distinct tags of a cache (R243) -/

/-- No two valid ways of a set hold the same tag, as the invariant tests it. -/
def tagsNodup (ws : List Way) : Bool := decide (validTags ws).Nodup

theorem tagsNodup_iff (ws : List Way) : tagsNodup ws = true ↔ ValidDistinct (·.tag) ws := by
  rw [tagsNodup, decide_eq_true_eq, validTags, nodup_valid_iff]

theorem tagsNodup_emptySet (g : CacheGeometry) : tagsNodup (emptySet g) = true := by
  simp [tagsNodup, validTags, emptySet, Way.invalid]

/-- A touch of the way that a lookup found changes no tag. -/
theorem tagsNodup_touch_found {g : CacheGeometry} {t : Nat} {ws : List Way} {w : Nat} (h : tagsNodup ws = true)
    (hl : lookup t ws = some w) : tagsNodup (touch g t ws w) = true := by
  rw [tagsNodup_iff] at *
  obtain ⟨v, hv, hvalid, rfl⟩ := lookup_some hl
  exact h.touch_tag fun j u hj hu huv e => hj (h j w u v hu hv huv hvalid e)

/-- A tag that no way holds may be given to any way. -/
theorem tagsNodup_touch_missed {g : CacheGeometry} {t : Nat} {ws : List Way} (w : Nat) (h : tagsNodup ws = true)
    (hl : lookup t ws = none) : tagsNodup (touch g t ws w) = true := by
  rw [tagsNodup_iff] at *
  exact h.touch_tag fun _ u _ hu huv e =>
    (lookup_eq_none_iff _ _).mp hl u (List.mem_of_getElem? hu) ⟨huv, e⟩

/-- The invariant: distinct tags in every set, and a fill of a block that no way holds. -/
theorem Cache.tagsDistinct_iff (g : CacheGeometry) (c : Cache) :
    c.tagsDistinct g = true ↔ (c.sets.all fun e => tagsNodup e.2) = true ∧
      ∀ f, c.fill = some f → lookup (tagOf g f.block) (setWays g c (setIndexOf g f.block)) = none := by
  unfold Cache.tagsDistinct
  rw [Bool.and_eq_true]
  refine and_congr Iff.rfl ?_
  cases c.fill <;> simp

/-- Installing a block that no way holds keeps the tags distinct. -/
theorem all_tagsNodup_install {g : CacheGeometry} {c : Cache} {b : Nat} (h : (c.sets.all fun e => tagsNodup e.2) = true)
    (hl : lookup (tagOf g b) (setWays g c (setIndexOf g b)) = none) :
    ((install g c b).sets.all fun e => tagsNodup e.2) = true :=
  all_putWays h _ (tagsNodup_touch_missed _ (setWays_of_all (tagsNodup_emptySet g) h _) hl)

theorem Cache.tagsDistinct_cacheLookup {g : CacheGeometry} {c : Cache} (h : c.tagsDistinct g = true)
    (hf : c.fill = none) (a : Nat) : (cacheLookup g c a).1.tagsDistinct g = true := by
  obtain ⟨hall, _⟩ := (tagsDistinct_iff g c).mp h
  obtain ⟨hset, htag⟩ := setIndexOf_tagOf_blockOf g a
  rcases cacheLookup_cases g c a with ⟨w, hw, e⟩ | ⟨hl, _, e⟩ | ⟨hl, _, e⟩ <;> rw [e, tagsDistinct_iff]
  · exact ⟨all_putWays hall _ (tagsNodup_touch_found (setWays_of_all (tagsNodup_emptySet g) hall _) hw),
      fun f hf' => by simp [hf] at hf'⟩
  · rw [← hset, ← htag] at hl
    exact ⟨all_tagsNodup_install hall hl, fun f hf' => by simp [hf] at hf'⟩
  · rw [← hset, ← htag] at hl
    refine ⟨hall, fun f hf' => ?_⟩
    cases hf'
    exact hl

theorem Cache.tagsDistinct_cacheAccess {k : CacheKind} {g : CacheGeometry} {c : Cache} (h : c.tagsDistinct g = true)
    (a : Word) : (cacheAccess k g c a).1.tagsDistinct g = true := by
  rcases cacheAccess_cases k g c a with ⟨_, _, _, e⟩ | ⟨_, e⟩ <;> rw [e]
  · exact h
  · obtain ⟨hall, _⟩ := (tagsDistinct_iff g c).mp h
    have hidle : ({ c with fill := none } : Cache).tagsDistinct g = true :=
      (tagsDistinct_iff g _).mpr ⟨hall, fun f hf => by cases hf⟩
    exact tagsDistinct_cacheLookup hidle rfl a.toNat

theorem Cache.tagsDistinct_tickFill {g : CacheGeometry} {c : Cache} (h : c.tagsDistinct g = true) :
    (tickFill g c).tagsDistinct g = true := by
  obtain ⟨hall, hfill⟩ := (tagsDistinct_iff g c).mp h
  rcases tickFill_cases g c with ⟨_, e⟩ | ⟨f, hf, _, e⟩ | ⟨f, hf, _, e⟩ <;> rw [e]
  · exact h
  · exact (tagsDistinct_iff g _).mpr ⟨all_tagsNodup_install hall (hfill f hf), fun f' hf' => by cases hf'⟩
  · refine (tagsDistinct_iff g _).mpr ⟨hall, fun f' hf' => ?_⟩
    cases hf'
    exact hfill f hf

/-! ### The caches through a cycle (R133, R136, R147, R240) -/

/-- All that a cycle can do to a cache: nothing where it faults, else a tick, and an access after it where the cache's one
stage makes one. -/
inductive CacheCycle (k : CacheKind) (g : CacheGeometry) (c : Cache) : Cache → Prop where
  | kept : CacheCycle k g c c
  | ticked : CacheCycle k g c (tickFill g c)
  | accessed (a : Word) : CacheCycle k g c (cacheAccess k g (tickFill g c) a).1

/-- What ticks and accesses keep of a cache, a cycle keeps. -/
theorem CacheCycle.keeps {k : CacheKind} {g : CacheGeometry} {c c' : Cache} {q : Cache → Prop} (h : CacheCycle k g c c')
    (htick : ∀ {c}, q c → q (tickFill g c)) (haccess : ∀ {c}, q c → ∀ a, q (cacheAccess k g c a).1) (hc : q c) : q c' := by
  cases h with
  | kept => exact hc
  | ticked => exact htick hc
  | accessed a => exact haccess (htick hc) a

/-- An access of the memory stage accesses the data cache once, if it is admitted (R136, R137). -/
theorem memAccess_dc {w : Nat} {access : MicroOp → State → State} {op : MicroOp} {s t : State}
    (h : memAccess w access op s = .next t) (hkeep : ∀ op s, (access op s).dc = s.dc) :
    t.dc = s.dc ∨ ∃ a, t.dc = (cacheAccess .data s.cfg.dc s.dc a).1 := by
  rcases memAccess_next h with ⟨_, rfl⟩ | ⟨_, _, rfl⟩ | ⟨_, _, rfl⟩
  · exact .inl rfl
  · exact .inr ⟨_, rfl⟩
  · exact .inr ⟨_, hkeep _ _⟩

/-- The memory stage leaves the data cache alone, or accesses it once (R135, R136). -/
theorem memoryStage_dc {s m : State} (h : memoryStage s = .next m) :
    m.dc = s.dc ∨ ∃ a, m.dc = (cacheAccess .data s.cfg.dc s.dc a).1 := by
  cases hl : s.prev.exmem with
  | none => rw [memoryStage_of_bubble hl] at h; cases h; exact .inl rfl
  | some op =>
    rw [memoryStage_of_tag hl] at h
    cases ht : op.tag with
    | unknown =>
      rw [ht, runTag, execUnknown, inStage_mem (s := s.atStage .mem) rfl hl] at h
      cases h
      exact .inl rfl
    | instr i =>
      rw [ht, runTag, exec_memory (s := s.atStage .mem) rfl hl] at h
      cases hk : memKind i with
      | none => rw [hk] at h; cases h; exact .inl rfl
      | load w =>
        have hload : memLoad w op (s.atStage .mem) = .next m := by rw [hk] at h; exact h
        exact memAccess_dc (s := s.atStage .mem) hload fun _ _ => rfl
      | store w =>
        have hstore : memStore w op (s.atStage .mem) = .next m := by rw [hk] at h; exact h
        exact memAccess_dc (s := s.atStage .mem) hstore fun _ _ => rfl

/-- The fetch stage leaves the instruction cache alone, or accesses it once (R146, R147). -/
theorem fetchStage_ic (s : State) :
    (fetchStage s).ic = s.ic ∨ ∃ a, (fetchStage s).ic = (cacheAccess .instruction s.cfg.ic s.ic a).1 := by
  rcases fetchStage_cases s with ⟨_, e⟩ | ⟨_, _, e⟩ | ⟨_, _, _, e⟩ | ⟨_, _, _, e⟩ <;> rw [e]
  · exact .inl rfl
  · exact .inl rfl
  · exact .inr ⟨_, rfl⟩
  · exact .inr ⟨_, rfl⟩

/-- The data cache after the memory stage of a cycle. -/
theorem memoryStage_cacheCycle {s m1 m2 : State} (hwb : writeBackStage s.atCycleStart = .next m1)
    (hmem : memoryStage m1 = .next m2) : CacheCycle .data s.cfg.dc s.dc m2.dc := by
  obtain ⟨k1, _, hdc1, _⟩ := writeBackStage_frame hwb
  have hdc : m1.dc = tickFill s.cfg.dc s.dc := hdc1
  have hcfg : m1.cfg = s.cfg := k1.cfg
  rcases memoryStage_dc hmem with e | ⟨a, e⟩ <;> rw [e, hdc]
  · exact .ticked
  · rw [hcfg]; exact .accessed a

/-- The instruction cache after the fetch of a cycle. -/
theorem fetchStage_cacheCycle {s m : State} (k : Keeps s.atCycleStart m) :
    CacheCycle .instruction s.cfg.ic s.ic (fetchStage m).ic := by
  have hic : m.ic = tickFill s.cfg.ic s.ic := k.ic
  have hcfg : m.cfg = s.cfg := k.cfg
  rcases fetchStage_ic m with e | ⟨a, e⟩ <;> rw [e, hic]
  · exact .ticked
  · rw [hcfg]; exact .accessed a

/-- A cycle from `s` to `t` keeps the configuration and does to each cache what a cycle can do to it. -/
structure CyclesCaches (s t : State) : Prop where
  cfg : t.cfg = s.cfg
  ic : CacheCycle .instruction s.cfg.ic s.ic t.ic
  dc : CacheCycle .data s.cfg.dc s.dc t.dc

/-- The instruction cache of a cycle that does not fetch. -/
theorem Keeps.cacheCycle {s m : State} (k : Keeps s.atCycleStart m) : CacheCycle .instruction s.cfg.ic s.ic m.ic := by
  rw [k.ic]
  exact .ticked

/-- A cycle that raises no fault, whichever way it ends. -/
theorem CycleEnd.cyclesCaches {s t : State} (h : CycleEnd s t) : CyclesCaches s t := by
  cases h with
  | freeze m1 m2 l hwb _ hmem h2 _ _ ht =>
    subst ht
    obtain ⟨k2, _⟩ := memoryStage_keeps_start hwb hmem h2
    have hic := k2.cacheCycle
    have hdc := memoryStage_cacheCycle hwb hmem
    exact ⟨k2.cfg, hic, hdc⟩
  | squash m1 m2 m3 hwb _ hmem h2 _ hex h3 _ ht =>
    subst ht
    obtain ⟨k2, _⟩ := memoryStage_keeps_start hwb hmem h2
    obtain ⟨k3, _, _, hdc3, _⟩ := executeStage_frame hex h3
    obtain ⟨_, hcfg, _, _, hdc, _, _, _, _, hic, _⟩ := squashMux_frame m3
    have k := k2.trans k3
    refine ⟨hcfg.trans k.cfg, ?_, ?_⟩
    · rw [endOfCycle_ic, hic]; exact fetchStage_cacheCycle k
    · rw [endOfCycle_dc, hdc, hdc3]; exact memoryStage_cacheCycle hwb hmem
  | stall m1 m2 m3 m4 hwb _ hmem h2 _ hex h3 _ hde h4 _ ht =>
    subst ht
    obtain ⟨k2, _⟩ := memoryStage_keeps_start hwb hmem h2
    obtain ⟨k3, _, _, hdc3, _⟩ := executeStage_frame hex h3
    obtain ⟨k4, _, _, hdc4, _⟩ := decodeStage_frame hde h4
    have k := (k2.trans k3).trans k4
    have hic := k.cacheCycle
    have hdc := memoryStage_cacheCycle hwb hmem
    rw [← hdc3, ← hdc4] at hdc
    exact ⟨k.cfg, hic, hdc⟩
  | fetch m1 m2 m3 m4 hwb _ hmem h2 _ hex h3 _ hde h4 _ ht =>
    subst ht
    obtain ⟨k2, _⟩ := memoryStage_keeps_start hwb hmem h2
    obtain ⟨k3, _, _, hdc3, _⟩ := executeStage_frame hex h3
    obtain ⟨k4, _, _, hdc4, _⟩ := decodeStage_frame hde h4
    obtain ⟨_, hcfg, _, _, _, _, hdc, _⟩ := fetchStage_frame m4
    have k := (k2.trans k3).trans k4
    refine ⟨hcfg.trans k.cfg, fetchStage_cacheCycle k, ?_⟩
    rw [endOfCycle_dc, hdc, hdc4, hdc3]
    exact memoryStage_cacheCycle hwb hmem

/-- Every step: a stopped machine and a fault keep both caches (R132, R351). -/
theorem step_cyclesCaches {s t : State} (h : step s = .next t) : CyclesCaches s t := by
  cases hst : s.stopped with
  | true => rw [step_of_stopped hst] at h; cases h; exact ⟨rfl, .kept, .kept⟩
  | false =>
    rcases step_cases (by simp [State.running, hst]) h with ⟨f, rfl⟩ | ⟨_, hend⟩
    · exact ⟨rfl, .kept, .kept⟩
    · exact hend.cyclesCaches

/-- A step keeps of both caches what ticks and accesses keep of one. -/
theorem CyclesCaches.keeps {s t : State} {q : CacheGeometry → Cache → Prop} (h : CyclesCaches s t)
    (htick : ∀ {g c}, q g c → q g (tickFill g c)) (haccess : ∀ {k g c}, q g c → ∀ a, q g (cacheAccess k g c a).1)
    (hs : q s.cfg.ic s.ic ∧ q s.cfg.dc s.dc) : q t.cfg.ic t.ic ∧ q t.cfg.dc t.dc := by
  obtain ⟨hcfg, hic, hdc⟩ := h
  rw [hcfg]
  exact ⟨hic.keeps htick haccess hs.1, hdc.keeps htick haccess hs.2⟩

theorem step_keeps_lru {s t : State} (hs : s.lru = true) (h : step s = .next t) : t.lru = true := by
  simp only [State.lru, Bool.and_eq_true] at hs ⊢
  exact (step_cyclesCaches h).keeps (q := fun g c => c.lru g = true) Cache.lru_tickFill Cache.lru_cacheAccess hs

theorem step_keeps_tagsDistinct {s t : State} (hs : s.tagsDistinct = true) (h : step s = .next t) :
    t.tagsDistinct = true := by
  simp only [State.tagsDistinct, Bool.and_eq_true] at hs ⊢
  exact (step_cyclesCaches h).keeps (q := fun g c => c.tagsDistinct g = true) Cache.tagsDistinct_tickFill
    Cache.tagsDistinct_cacheAccess hs

end Sys2Proof.Machine

open Sys2Proof.Machine

/-- Settles O51: each cache is only ticked and accessed, and both keep either invariant. -/
theorem cachesStayWellFormed : Obligations.CachesStayWellFormed :=
  ⟨fun _ _ => step_keeps_lru, fun _ _ => step_keeps_tagsDistinct⟩

/-- Settles O37, by the pending fill and then by what the lookup finds. -/
theorem cacheAccessRule : Obligations.CacheAccessRule := by
  intro k g c a
  refine ⟨fun f hf hb => cacheAccess_of_sameBlock k hf hb, fun f hf hb =>
    ⟨cacheAccess_data_of_otherBlock hf hb, cacheAccess_instruction_of_otherBlock hf hb⟩, fun hf => ?_⟩
  rw [cacheAccess_of_idle k g a hf]
  refine ⟨fun ⟨v, hv, hp⟩ => ?_, fun hmiss => ?_⟩
  · have hfound : lookup (tagOf g a.toNat) (setWays g c (setIndexOf g a.toNat)) ≠ none :=
      fun hnone => (lookup_eq_none_iff _ _).mp hnone v hv hp
    obtain ⟨w, hw⟩ := Option.ne_none_iff_exists'.mp hfound
    obtain ⟨u, hu, huv, hut⟩ := lookup_some hw
    rw [cacheLookup_of_some hw]
    refine ⟨rfl, hf, ⟨w, u, hu, huv, hut, ?_⟩, fun j hj => ?_⟩
    · rw [setWays_putWays, if_pos rfl]
    · rw [setWays_putWays, if_neg hj]
  · rw [cacheLookup_of_none ((lookup_eq_none_iff _ _).mpr fun v hv hp => hmiss ⟨v, hv, hp⟩)]
    exact ⟨fun hp => if_pos hp, fun hp => if_neg hp⟩

/-- Settles O38: the touch by the validity of its way, the victim by whether the set is full. -/
theorem recencyAndVictim : Obligations.RecencyAndVictim := by
  intro g ws h
  refine ⟨fun w v t hv hvalid => ⟨touch_getElem?_self g t hv, fun j u hj hu => ?_⟩,
    fun w v t hv hinvalid => ⟨touch_getElem?_self g t hv, fun j u hj hu => ?_⟩,
    fun c b hws => ⟨?_, fun j hj => ?_, install_fill g c b⟩, victim_of_invalid,
    fun hfull hw j u hu => age_eq_iff_victim h hfull hw hu⟩
  · rw [touch_getElem?_ne g t hj hu, oldAge_of_valid hv hvalid]
  · have hyounger : (u.valid = true ∧ u.age < g.ways) ↔ u.valid = true :=
      and_iff_left_of_imp (age_lt_ways h (List.mem_of_getElem? hu))
    simp only [touch_getElem?_ne g t hj hu, oldAge_of_invalid hv hinvalid, hyounger]
  · rw [setWays_install, if_pos rfl, hws]
  · rw [setWays_install, if_neg hj]

/-- Settles O39: the fill that the miss starts counts down to its installation, after which the block is found. -/
theorem missCompletesAfterPenalty : Obligations.MissCompletesAfterPenalty := by
  intro k g c a hg hlru hf hp hmiss
  obtain ⟨_, _, _, hways⟩ := g.valid_iff.mp hg
  obtain ⟨hset, htag⟩ := setIndexOf_tagOf_blockOf g a.toNat
  have hstart : cacheAccess k g c a = ({ c with fill := some ⟨blockOf g a.toNat, g.penalty⟩ }, false) := by
    rw [cacheAccess_of_idle k g a hf, cacheLookup_of_none ((lookup_eq_none_iff _ _).mpr hmiss), if_neg hp]
  have hdone : ticks g g.penalty (cacheAccess k g c a).1 = { install g c (blockOf g a.toNat) with fill := none } := by
    obtain ⟨r, hr⟩ := Nat.exists_eq_succ_of_ne_zero hp
    rw [hstart, hr, ticks_filled rfl]
    rfl
  have hne : setWays g c (setIndexOf g (blockOf g a.toNat)) ≠ [] := by
    obtain ⟨hlen, _⟩ := (setLru_iff g _).mp (Cache.lru_setWays hlru (setIndexOf g (blockOf g a.toNat)))
    exact List.ne_nil_of_length_pos (by omega)
  have hfound := lookup_install hne
  rw [hset, htag] at hfound
  refine ⟨by rw [hstart], fun n hn => ?_, by rw [hdone], ?_⟩
  · rw [hstart, ticks_filling rfl hn, cacheAccess_of_sameBlock k rfl rfl]
  · rw [hdone]
    exact cacheAccess_of_lookup rfl hfound
end

section
/-! SUPPORT. PROOFS of the ALU family (spec/44_alu.md): every add, subtract, logical, shift, move and multiply instruction in
execute, memory and write-back (R270), its result as arithmetic modulo `2^64`, and the words of the worked examples.

Memory and write-back of an instruction follow from its class and its row of R104; execute of an ALU instruction is one of
two operations of the model, by whether it sets the flags. So an instruction is settled by its arm and by its result. -/

namespace Sys2Proof.Machine

/-! ### Memory and write-back, by the class and the row of R104 -/

theorem passesMemory_of_memKind_none {i : Instr} (h : memKind i = .none) : PassesMemory i := by
  intro s op hp hl
  rw [exec_memory hp hl, h]
  rfl

/-- Write-back of every instruction but `HLT` commits its row of R104: a declared destination is always written (R134). -/
theorem commits_declared {i : Instr} (h : isHalt i = false) :
    Commits i (declared i).dst (fun op => if (declared i).writes = .memVal then op.memVal else op.result)
      (declared i).flags := by
  intro s op hp hl
  refine ⟨_, exec_writeBack hp hl, fun r => ?registers, (commit_eq ..).trans ?others⟩
  case registers =>
    obtain ⟨hwritten, _⟩ := Sys2Proof.Laws.DeclaredFields.holds i
    have hcond : ((declared i).writes ≠ .none ∧ (declared i).dst = some r ∧ r ≠ zeroReg) ↔
        ((declared i).dst = some r ∧ r ≠ zeroReg) :=
      and_iff_right_of_imp fun ⟨hdst, _⟩ => hwritten.mp (by rw [hdst]; rfl)
    simp only [commit_reg, hcond]
  case others => rw [h, Bool.or_false]

/-- An instruction that does not access memory commits its result, where it has a destination (R134). -/
theorem commits_result {i : Instr} (hhalt : isHalt i = false) (hmem : memKind i = .none) :
    Commits i (declared i).dst MicroOp.result (declared i).flags := by
  obtain ⟨_, hloads, _⟩ := Sys2Proof.Laws.DeclaredFields.holds i
  have hnotLoaded : (declared i).writes ≠ .memVal := fun hw => by
    obtain ⟨n, hn⟩ := hloads.mp hw
    rw [hmem] at hn
    cases hn
  simpa only [if_neg hnotLoaded] using commits_declared hhalt

/-! ### Execute -/

/-- With no load ahead of a declared source, execute latches what the instruction makes of the forwarded micro-op (R140). -/
theorem exStage_of_sourcesNotLoaded {d : Declared} {s : State} (h : sourcesNotLoaded d s.prev.exmem = true)
    (f : MicroOp → MicroOp) (op : MicroOp) :
    exStage d f op s = .next (s.putExmem (some (f (withSources d s.prev op)))) := by
  rw [exStage, forward_eq, if_pos h]

theorem flagN_eq_getLsbD (r : Word) : flagN r = r.getLsbD 63 := BitVec.msb_eq_getLsbD_last r

/-- Execute of an ALU instruction, by whether it sets the flags (R270, R297). -/
def exAluBy (flags : Bool) (d : Declared) (f : Word → Word → Word) : StageFn :=
  match flags with
  | false => exAlu d f
  | true => exAluFlags d f

/-- An instruction whose execute is an ALU operation runs as R270 says, with the sources, the destination and the flags of
its row of R104. Its result may be said by any function `g` equal to the model's `f`. -/
theorem runsAlu {i : Instr} {f g : Word → Word → Word} (hmem : memKind i = .none) (hhalt : isHalt i = false)
    (hrt : (declared i).rt = none)
    (hex : ∀ {s : State} {op : MicroOp}, s.stage = .ex → s.prev.deex = some op →
      exec i s = exAluBy (declared i).flags (declared i) f op s)
    (hfg : ∀ a b, f a b = g a b) :
    RunsAlu i (declared i).rn (declared i).rm (declared i).dst (declared i).flags g := by
  obtain rfl : f = g := funext₂ hfg
  refine ⟨fun s op hp hl hrn hrm => ?_, passesMemory_of_memKind_none hmem, commits_result hhalt hmem⟩
  have hfree : sourcesNotLoaded (declared i) s.prev.exmem = true := by
    rw [sourcesNotLoaded, hrn, hrm, hrt]
    rfl
  rw [hex hp hl]
  cases (declared i).flags with
  | false =>
    rw [exAluBy, exAlu, exStage_of_sourcesNotLoaded hfree, withSources, hrt]
    rfl
  | true =>
    rw [exAluBy, exAluFlags, exStage_of_sourcesNotLoaded hfree, withSources, hrt, withResultFlags, flagN_eq_getLsbD]
    rfl

/-! ### Results as arithmetic modulo `2^64` -/

theorem eq_ofNat_of_toNat_eq {v : Word} {n : Nat} (h : v.toNat = n) : v = BitVec.ofNat 64 n := by
  rw [← h, BitVec.ofNat_toNat, BitVec.setWidth_eq]

theorem eq_ofNat_of_toNat_eq_mod {v : Word} {n : Nat} (h : v.toNat = n % 2 ^ 64) : v = BitVec.ofNat 64 n :=
  BitVec.eq_of_toNat_eq (h.trans (BitVec.toNat_ofNat n 64).symm)

/-- A sum modulo `2^64`, with an operand that stands for `n`. -/
theorem add_eq_ofNat {b : Word} {n : Nat} (h : b = BitVec.ofNat 64 n) (a : Word) :
    a + b = BitVec.ofNat 64 (a.toNat + n) := by
  rw [h, BitVec.ofNat_add, BitVec.ofNat_toNat, BitVec.setWidth_eq]

/-- A difference modulo `2^64`, with an operand that stands for `n`. -/
theorem sub_eq_ofInt {b : Word} {n : Nat} (h : b = BitVec.ofNat 64 n) (a : Word) :
    a - b = BitVec.ofInt 64 (a.toNat - n) := by
  refine BitVec.eq_of_toNat_eq ?_
  rw [h, BitVec.toNat_sub, BitVec.toNat_ofNat, BitVec.toNat_ofInt]
  omega

theorem addSubImm_eq_ofNat (sh : BitVec 1) (imm12 : BitVec 12) :
    addSubImm sh imm12 = BitVec.ofNat 64 (imm12.toNat * 2 ^ (12 * sh.toNat)) :=
  eq_ofNat_of_toNat_eq (addSubImm_toNat sh imm12)

theorem shiftReg_eq_ofNat (v : Word) (shift : ShiftType) (imm6 : BitVec 6) :
    shiftReg v shift imm6 = BitVec.ofNat 64 (shiftReg v shift imm6).toNat :=
  eq_ofNat_of_toNat_eq rfl

theorem extendedOperand_eq_ofNat (v : Word) (option : Extend) (imm3 : BitVec 3) :
    extendedOperand v option imm3 = BitVec.ofNat 64 ((extendReg v option).toNat * 2 ^ imm3.toNat) :=
  eq_ofNat_of_toNat_eq_mod (extendedOperand_toNat v option imm3)

end Sys2Proof.Machine

namespace Sys2Proof

/-- A word that the encoder writes for a well-formed instruction decodes to it. -/
theorem decode_of_encode_eq {w : InstWord} {i : Instr} (he : encode i = w) (h : i.wellFormed = true) :
    decode w = .instr i := he ▸ decode_encode i h

end Sys2Proof

open Sys2Proof Sys2Proof.Machine

/-- Settles O18: the immediate operand is a number, and the model adds or subtracts it. -/
theorem addSubImmediateRuns : Obligations.AddSubImmediateRuns := by
  intro sh imm12 rn rd
  have himm := addSubImm_eq_ofNat sh imm12
  exact ⟨runsAlu rfl rfl rfl inStage_ex fun a _ => add_eq_ofNat himm a,
    runsAlu rfl rfl rfl inStage_ex fun a _ => add_eq_ofNat himm a,
    runsAlu rfl rfl rfl inStage_ex fun a _ => sub_eq_ofInt himm a,
    runsAlu rfl rfl rfl inStage_ex fun a _ => sub_eq_ofInt himm a,
    runsAlu rfl rfl rfl inStage_ex fun a _ => sub_eq_ofInt himm a⟩

/-- Settles O19: as O18, on the shifted operand. -/
theorem addSubShiftedRuns : Obligations.AddSubShiftedRuns := by
  intro shift rm imm6 rn rd
  have hoperand (b : Word) := shiftReg_eq_ofNat b shift imm6
  exact ⟨runsAlu rfl rfl rfl inStage_ex fun a b => add_eq_ofNat (hoperand b) a,
    runsAlu rfl rfl rfl inStage_ex fun a b => add_eq_ofNat (hoperand b) a,
    runsAlu rfl rfl rfl inStage_ex fun a b => sub_eq_ofInt (hoperand b) a,
    runsAlu rfl rfl rfl inStage_ex fun a b => sub_eq_ofInt (hoperand b) a,
    runsAlu rfl rfl rfl inStage_ex fun a b => sub_eq_ofInt (hoperand b) a⟩

/-- Settles O20: as O18, on the extended operand, whose left shift may lose bits above the word. -/
theorem addSubExtendedRuns : Obligations.AddSubExtendedRuns := by
  intro rm option imm3 rn rd
  have hoperand (b : Word) := extendedOperand_eq_ofNat b option imm3
  exact ⟨runsAlu rfl rfl rfl inStage_ex fun a b => add_eq_ofNat (hoperand b) a,
    runsAlu rfl rfl rfl inStage_ex fun a b => add_eq_ofNat (hoperand b) a,
    runsAlu rfl rfl rfl inStage_ex fun a b => sub_eq_ofInt (hoperand b) a,
    runsAlu rfl rfl rfl inStage_ex fun a b => sub_eq_ofInt (hoperand b) a,
    runsAlu rfl rfl rfl inStage_ex fun a b => sub_eq_ofInt (hoperand b) a⟩

/-- Settles O21: the results are the model's own operations on the shifted operand. -/
theorem logicalRuns : Obligations.LogicalRuns := by
  intro shift rm imm6 rn rd
  exact ⟨runsAlu rfl rfl rfl inStage_ex fun _ _ => rfl, runsAlu rfl rfl rfl inStage_ex fun _ _ => rfl,
    runsAlu rfl rfl rfl inStage_ex fun _ _ => rfl, runsAlu rfl rfl rfl inStage_ex fun _ _ => rfl⟩

/-- Settles O22: the two shifts are those of a register operand, and a right shift and a move lose nothing to the modulus. -/
theorem shiftMoveMultiplyRuns : Obligations.ShiftMoveMultiplyRuns := by
  intro shamt hw imm16 rm rn rd
  exact ⟨runsAlu rfl rfl rfl inStage_ex fun a _ => eq_ofNat_of_toNat_eq_mod (shiftReg_lsl_toNat a shamt),
    runsAlu rfl rfl rfl inStage_ex fun a _ => eq_ofNat_of_toNat_eq (shiftReg_lsr_toNat a shamt),
    runsAlu rfl rfl rfl inStage_ex fun _ _ => eq_ofNat_of_toNat_eq (moveWideImm_toNat hw imm16),
    runsAlu rfl rfl rfl inStage_ex fun a b => eq_ofNat_of_toNat_eq_mod (BitVec.toNat_mul a b)⟩

/-- Settles O3: each word of a listed instruction is the encoder's, and the last four match no row. -/
theorem workedExampleWordsDecode : Obligations.WorkedExampleWordsDecode :=
  ⟨decode_of_encode_eq rfl rfl, decode_of_encode_eq rfl rfl, decode_of_encode_eq rfl rfl, decode_of_encode_eq rfl rfl,
    decode_of_encode_eq rfl rfl, decode_of_encode_eq rfl rfl, decode_of_encode_eq rfl rfl, decode_of_encode_eq rfl rfl,
    decode_of_encode_eq rfl rfl, decode_of_encode_eq rfl rfl, decode_of_encode_eq rfl rfl, decode_of_encode_eq rfl rfl,
    decode_of_encode_eq rfl rfl, decode_of_encode_eq rfl rfl, decode_of_encode_eq rfl rfl, by decide, by decide,
    by decide, by decide⟩
end

section
/-! SUPPORT. PROOFS of the load and store family (spec/45_loadstore.md): the effective address (R300), the memory stage of an
access that hits, misses or is not admitted (R301 to R308, spec/20_memory.md R67), and the commit of a load and of a store.

The memory stage follows from the class of the instruction and write-back from its row of R104; execute is one of two
operations of the model, which differ in whether they latch store data. So the eight instructions follow from two lemmas. -/

namespace Sys2Proof.Machine

/-! ### The effective address -/

/-- The effective address as a number: the base plus the signed unscaled offset, modulo `2^64` (R300). -/
theorem add_loadStoreOffset (a : Word) (imm9 : BitVec 9) :
    a + loadStoreOffset imm9 = BitVec.ofInt 64 (a.toNat + imm9.toInt) := by
  rw [BitVec.ofInt_add, BitVec.ofInt_natCast, BitVec.ofNat_toNat, BitVec.setWidth_eq]
  rfl

/-- Execute of an access: the forwarded micro-op takes the effective address and, where a data register is declared, the
store data (R300). -/
theorem executesAddress {i : Instr} {rn : Reg} {data dst : Option Reg} {w : Writes} {imm9 : BitVec 9}
    {f : MicroOp → MicroOp} (hrow : declared i = ⟨some rn, none, data, dst, w, false⟩)
    (hex : ∀ {s : State} {op : MicroOp}, s.stage = .ex → s.prev.deex = some op → exec i s = exStage (declared i) f op s)
    (hf : ∀ o, f o = { o with
      memAddr := o.rnVal + loadStoreOffset imm9
      memVal := if data.isSome then o.rtVal else o.memVal }) :
    ExecutesAddress i rn data imm9 := by
  intro s op hp hl hrn hdata
  have hfree : sourcesNotLoaded (declared i) s.prev.exmem = true := by
    rw [hrow, sourcesNotLoaded, hrn, hdata]
    rfl
  rw [hex hp hl, exStage_of_sourcesNotLoaded hfree, hf, hrow, add_loadStoreOffset]
  rfl

/-! ### The memory stage -/

/-- The admission check of an access is that every byte of it lies in an admitted word (spec/20_memory.md R67). -/
theorem accessAdmitted_iff_accessible (c : Config) (a : Word) (n : Nat) :
    accessAdmitted c a n = true ↔ accessible c a n := by
  induction n generalizing a with
  | zero => simp [accessAdmitted, accessible]
  | succ n ih =>
    rw [accessAdmitted, Bool.and_eq_true, ih, accessible, accessible, Nat.forall_lt_succ_left]
    simp only [addr_succ, BitVec.add_zero]

/-- An access that is admitted and misses raises the stall and leaves a bubble (spec/40_pipeline_engine.md R137). -/
theorem memAccess_of_miss {w : Nat} (access : MicroOp → State → State) {op : MicroOp} {s : State}
    (ha : accessAdmitted s.cfg op.memAddr w = true) (hc : (cacheAccess .data s.cfg.dc s.dc op.memAddr).2 = false) :
    memAccess w access op s =
      .next ((s.setDc (cacheAccess .data s.cfg.dc s.dc op.memAddr).1).putMemwb none).raiseMemStall := by
  simp [memAccess, ha, hc]

/-- An access that is not admitted faults, and the cache is not looked up (spec/20_memory.md R67). -/
theorem memAccess_of_not_admitted {w : Nat} (access : MicroOp → State → State) {op : MicroOp} {s : State}
    (ha : ¬ accessAdmitted s.cfg op.memAddr w = true) : memAccess w access op s = raise .dataNotAdmitted s :=
  if_neg ha

/-- The memory stage of a load or a store is one access of its width (spec/40_pipeline_engine.md R136). -/
theorem exec_memory_of_access {i : Instr} {n : Nat} (hk : memKind i = .load n ∨ memKind i = .store n) :
    ∃ access, ∀ {s : State} {op : MicroOp}, s.stage = .mem → s.prev.exmem = some op →
      exec i s = memAccess n access op s := by
  rcases hk with hk | hk
  · exact ⟨_, fun hp hl => by rw [exec_memory hp hl, hk]; rfl⟩
  · exact ⟨_, fun hp hl => by rw [exec_memory hp hl, hk]; rfl⟩

/-- What an access does where it does not complete says nothing of its direction: loads and stores share it. -/
theorem waitsOrFaults_of_access {i : Instr} {n : Nat} (hk : memKind i = .load n ∨ memKind i = .store n) :
    WaitsOrFaults i n := by
  obtain ⟨access, hexec⟩ := exec_memory_of_access hk
  intro s op hp hl
  rw [hexec hp hl, ← accessAdmitted_iff_accessible]
  exact ⟨memAccess_of_miss access, memAccess_of_not_admitted access⟩

/-- The loaded value is `MemRead` of the access, known by its bytes (spec/20_memory.md R63). -/
theorem loadsFromMemory {i : Instr} {n : Nat} (hk : memKind i = .load n) : LoadsFromMemory i n := by
  intro s op hp hl ha hc
  rw [exec_memory hp hl, hk]
  exact ⟨memRead s.mem op.memAddr n, memAccess_of_hit _ ((accessAdmitted_iff_accessible ..).mpr ha) hc,
    fun _ hbyte => byteOf_memRead s.mem op.memAddr n hbyte⟩

/-- The memory after the store is `MemWrite` of the access, known by its bytes (spec/20_memory.md R64). -/
theorem storesToMemory {i : Instr} {n : Nat} (hk : memKind i = .store n) : StoresToMemory i n := by
  intro s op hp hl ha hc
  rw [exec_memory hp hl, hk]
  exact ⟨memWrite s.mem op.memAddr op.memVal n, memAccess_of_hit _ ((accessAdmitted_iff_accessible ..).mpr ha) hc,
    fun b => readByte_memWrite s.mem op.memAddr op.memVal b (store_width_lt hk)⟩

/-! ### The three stages together -/

/-- A load of `n` bytes runs as R300 says, where its row of R104 is that of a load from base `rn` into `rt`. -/
theorem runsLoad {i : Instr} {n : Nat} {imm9 : BitVec 9} {rn rt : Reg} (hk : memKind i = .load n) (hhalt : isHalt i = false)
    (hrow : declared i = ⟨some rn, none, none, some rt, .memVal, false⟩)
    (hex : ∀ {s : State} {op : MicroOp}, s.stage = .ex → s.prev.deex = some op →
      exec i s = exLoad (declared i) imm9 op s) :
    RunsLoad i n imm9 rn rt := by
  have hcommits := commits_declared hhalt
  rw [hrow] at hcommits
  exact ⟨executesAddress hrow hex fun _ => rfl, loadsFromMemory hk, waitsOrFaults_of_access (.inl hk), hcommits⟩

/-- A store of `n` bytes runs as R300 says, where its row of R104 is that of a store of `rt` at base `rn`. -/
theorem runsStore {i : Instr} {n : Nat} {imm9 : BitVec 9} {rn rt : Reg} (hk : memKind i = .store n)
    (hhalt : isHalt i = false) (hrow : declared i = ⟨some rn, none, some rt, none, .none, false⟩)
    (hex : ∀ {s : State} {op : MicroOp}, s.stage = .ex → s.prev.deex = some op →
      exec i s = exStore (declared i) imm9 op s) :
    RunsStore i n imm9 rn rt := by
  have hcommits := commits_declared hhalt
  rw [hrow] at hcommits
  exact ⟨executesAddress hrow hex fun _ => rfl, storesToMemory hk, waitsOrFaults_of_access (.inr hk), hcommits⟩

end Sys2Proof.Machine

open Sys2Proof.Machine

/-- Settles O23: each load has the memory class, the row of R104 and the execute operation that `runsLoad` asks for. -/
theorem loadsRun : Obligations.LoadsRun := by
  intro imm9 rn rt
  exact ⟨runsLoad rfl rfl rfl inStage_ex, runsLoad rfl rfl rfl inStage_ex, runsLoad rfl rfl rfl inStage_ex,
    runsLoad rfl rfl rfl inStage_ex⟩

/-- Settles O24: as O23, with `runsStore`. -/
theorem storesRun : Obligations.StoresRun := by
  intro imm9 rn rt
  exact ⟨runsStore rfl rfl rfl inStage_ex, runsStore rfl rfl rfl inStage_ex, runsStore rfl rfl rfl inStage_ex,
    runsStore rfl rfl rfl inStage_ex⟩
end

section
/-! SUPPORT. PROOFS of the branch family (spec/46_branch.md): every branch in execute, memory and write-back (R320 to R332).

Execute of every branch is one operation of the model, memory and write-back follow from its class and its row of R104. So a
branch is settled by its target and its condition. -/

namespace Sys2Proof.Machine

/-! ### Targets and conditions -/

/-- A branch target as a number: the address plus the signed offset, modulo `2^64` (R321, R323). -/
theorem add_eq_ofInt {offset : Word} {k : Int} (h : offset.toInt = k) (pc : Word) :
    pc + offset = BitVec.ofInt 64 (pc.toNat + k) := by
  rw [← h, BitVec.ofInt_add, BitVec.ofInt_natCast, BitVec.ofNat_toNat, BitVec.setWidth_eq, BitVec.ofInt_toInt]

theorem condHolds_eq (z n : Bool) : condHolds .eq z n = decide (z = true) := by cases z <;> rfl

theorem condHolds_ne (z n : Bool) : condHolds .ne z n = decide (z = false) := by cases z <;> rfl

theorem condHolds_ge (z n : Bool) : condHolds .ge z n = decide (n = false) := by cases n <;> rfl

theorem condHolds_lt (z n : Bool) : condHolds .lt z n = decide (n = true) := by cases n <;> rfl

theorem condHolds_gt (z n : Bool) : condHolds .gt z n = decide (z = false ∧ n = false) := by
  cases z <;> cases n <;> rfl

theorem condHolds_le (z n : Bool) : condHolds .le z n = decide (z = true ∨ n = true) := by
  cases z <;> cases n <;> rfl

theorem beq_zero_eq_decide (v : Word) : (v == 0#64) = decide (v.toNat = 0) := by
  rw [Bool.eq_iff_iff, beq_iff_eq, decide_eq_true_iff, BitVec.toNat_eq]
  rfl

theorem bne_zero_eq_decide (v : Word) : (v != 0#64) = decide (v.toNat ≠ 0) := by
  rw [bne, beq_zero_eq_decide, decide_not]

/-! ### The three stages of a branch -/

/-- The forwarded micro-op with the target and the direction that execute computes (R140). -/
def branchedOp (d : Declared) (target : MicroOp → Word) (taken : State → MicroOp → Bool) (s : State) (op : MicroOp) :
    MicroOp :=
  { withSources d s.prev op with
    target := target (withSources d s.prev op)
    taken := taken s (withSources d s.prev op) }

/-- Execute of a branch with no load ahead of a declared source: the micro-op is latched, and its resolved PC, a multiple of
4, is reported with the squash signal of a mis-prediction (R140, R220, R223). -/
theorem exBranch_of_aligned {d : Declared} {cond : Bool} {target : MicroOp → Word} {taken : State → MicroOp → Bool}
    {op : MicroOp} {s : State} {next : Word} (hfree : sourcesNotLoaded d s.prev.exmem = true)
    (hnext : resolvedPc (branchedOp d target taken s op) = next) (ha : aligned4 next = true) :
    exBranch d cond target taken op s =
      .next ((s.putExmem (some (branchedOp d target taken s op))).putResolved (decide (op.predPc ≠ next)) next
        (predUpdate s.cfg s.bp cond (branchedOp d target taken s op))) := by
  have hsquash : decide (op.predPc ≠ next) = (op.predPc != next) := decide_not
  rw [exBranch, forward_eq, if_pos hfree, hsquash]
  subst hnext
  exact if_pos ha

/-- A branch runs as R320 and R332 say, where its row of R104 declares at most the base `rn` and the tested register `rt`.
Its target and its condition may be said by any functions equal to the model's `f` and `g`. -/
theorem runsBranch {i : Instr} {cond : Bool} {rn rt : Option Reg} {f : MicroOp → Word} {g : State → MicroOp → Bool}
    {target : Word → Word → Word} {taken : State → Word → Bool} (hmem : memKind i = .none) (hhalt : isHalt i = false)
    (hrow : declared i = ⟨rn, none, rt, none, .none, false⟩)
    (hex : ∀ {s : State} {op : MicroOp}, s.stage = .ex → s.prev.deex = some op →
      exec i s = exBranch (declared i) cond f g op s)
    (hf : ∀ o, f o = target o.pc o.rnVal) (hg : ∀ s o, g s o = taken s o.rtVal) :
    RunsBranch i cond rn rt target taken := by
  obtain rfl : f = fun o => target o.pc o.rnVal := funext hf
  obtain rfl : g = fun s o => taken s o.rtVal := funext₂ hg
  have hcommits := commits_result hhalt hmem
  rw [hrow] at hex hcommits
  refine ⟨fun s op tgt next tk hp hl hrn hrt htgt htk hnext ha => ?_, passesMemory_of_memKind_none hmem, hcommits⟩
  subst htgt htk
  have hfree : sourcesNotLoaded ⟨rn, none, rt, none, .none, false⟩ s.prev.exmem = true := by
    rw [sourcesNotLoaded, hrn, hrt]
    rfl
  exact (hex hp hl).trans (exBranch_of_aligned hfree hnext.symm ((aligned4_iff next).mpr ha))

end Sys2Proof.Machine

open Sys2Proof.Machine

/-- Settles O25: each branch has the row of R104, the execute operation and the target that `runsBranch` asks for. -/
theorem unconditionalBranchesRun : Obligations.UnconditionalBranchesRun := by
  intro imm26 rn
  exact ⟨runsBranch rfl rfl rfl inStage_ex (fun o => add_eq_ofInt (branchOffset_toInt imm26) o.pc) fun _ _ => rfl,
    runsBranch rfl rfl rfl inStage_ex (fun _ => rfl) fun _ _ => rfl⟩

/-- Settles O26: as O25, with the condition of each branch as a truth value of its flags or of its tested register. -/
theorem conditionalBranchesRun : Obligations.ConditionalBranchesRun := by
  intro imm19 rt
  have htarget (o : MicroOp) := add_eq_ofInt (condBranchOffset_toInt imm19) o.pc
  exact ⟨runsBranch rfl rfl rfl inStage_ex htarget fun _ _ => condHolds_eq _ _,
    runsBranch rfl rfl rfl inStage_ex htarget fun _ _ => condHolds_ne _ _,
    runsBranch rfl rfl rfl inStage_ex htarget fun _ _ => condHolds_ge _ _,
    runsBranch rfl rfl rfl inStage_ex htarget fun _ _ => condHolds_lt _ _,
    runsBranch rfl rfl rfl inStage_ex htarget fun _ _ => condHolds_gt _ _,
    runsBranch rfl rfl rfl inStage_ex htarget fun _ _ => condHolds_le _ _,
    runsBranch rfl rfl rfl inStage_ex htarget fun _ o => beq_zero_eq_decide o.rtVal,
    runsBranch rfl rfl rfl inStage_ex htarget fun _ o => bne_zero_eq_decide o.rtVal⟩
end

section
/-! SUPPORT. PROOFS of the branch family (spec/46_branch.md), one branch alone in the pipeline: its first cycle decodes it
while `PC` waits at the prediction, and its second resolves it to the next address of sequential execution (R320, R332). -/

namespace Sys2Proof.Machine

/-! ### What a branch alone resolves to -/

/-- The next address of sequential execution is the resolved PC on the register file and the flags (R222, R320). -/
theorem seqExec_next (i : Instr) (pc : Word) (s : State) :
    (seqExec i pc s).2 = nextPcOf i pc (readSource s (declared i).rn) (readSource s (declared i).rt) s.z s.n := by
  cases i with
  | cbz imm19 rt | cbnz imm19 rt =>
    by_cases h : s.reg rt = 0#64 <;> simp [seqExec, seqBranch, nextPcOf, readSource, declared, h]
  | _ => rfl

/-- With nothing ahead a source keeps the value that decode read (R186). -/
theorem sourceOf_alone {L : Latches} (hx : L.exmem = none) (hm : L.memwb = none) (r : Option Reg) (v : Word) :
    sourceOf L r v = v := by
  cases r <;> simp [sourceOf, operandOf, hx, hm]

/-- With nothing in EX→MEM no load is ahead (R189). -/
theorem noLoadAhead_of_exmem_none {s : State} (hx : s.prev.exmem = none) : s.noLoadAhead = true := by
  have hfree (r : Option Reg) : notLoadedBy s.prev.exmem r = true := by cases r <;> simp [notLoadedBy, hx]
  cases hl : s.prev.deex <;> simp [State.noLoadAhead, hl, hfree]

/-- A branch alone in execute resolves to the next address of sequential execution. -/
theorem resolvedInExecute_alone {s s' : State} {i : Instr} {op : MicroOp} {c : Bool}
    (hl : s.prev = ⟨none, some (decodedOp (.instr i) s' op), none, none⟩) (hb : branchKind i = some c)
    (ha : KeepsArchitecture s' s) : s.resolvedInExecute = some (seqExec i op.pc s').2 := by
  have hflags : s.committedFlags = (s'.z, s'.n) := by simp [State.committedFlags, hl, ha.z, ha.n]
  have hsource := sourceOf_alone (L := s.prev) (by rw [hl]) (by rw [hl])
  simp only [State.resolvedInExecute, hsource, hflags, seqExec_next]
  simp only [hl, decodedOp, hb, Option.map_some, Tag.declared]

/-! ### The two cycles of a branch alone -/

/-- A cycle that commits nothing and accesses no memory keeps the architecture and the memory. -/
theorem step_keepsArchitecture_of_bubbles {s t : State} (hr : s.running = true) (h : step s = .next t) (hf : t.fault = none)
    (hx : s.prev.exmem = none) (hm : s.prev.memwb = none) : KeepsArchitecture s t ∧ t.mem = s.mem := by
  obtain ⟨m1, m2, hwb, hmem, _, k⟩ := (step_ends hr h hf).committed
  obtain ⟨m1', m2', hwb', hmem', _, ha, _, _, _, hm2, _⟩ := memoryStage_of_bubbles hm hx
  cases hwb.symm.trans hwb'
  cases hmem.symm.trans hmem'
  exact ⟨ha.trans k.arch, k.mem.trans hm2⟩

/-- A straight-line cycle whose fetch waits keeps `PC` and squashes nothing (R142, R146, R148). -/
theorem step_of_straightLine_waits {s : State} {n : Nat} (hr : s.running = true) (hd : s.memoryOutcome = .done)
    (hn : s.noLoadAhead = true) (he : s.executePasses = true) (hp : s.decodePasses = true)
    (hw : s.fetchWaits (n + 1) = true) :
    ∃ t, step s = .next t ∧ t.fault = none ∧ t.pc = s.pc ∧ t.squashes = s.squashes := by
  obtain ⟨m, hstep, k, hf, _⟩ := step_of_straightLine hr hd hn he hp
  have hfetch := fetchStage_of_waits (fetchWaits_tick k hw)
  exact ⟨_, hstep, (fetchStage_fault m).trans hf, by rw [hfetch]; exact k.pc, by rw [hfetch]; exact k.squashes⟩

/-- The first cycle of a branch alone, which decodes it, leaves `PC` as it is. -/
theorem decodeCycle_keeps_pc {s t : State} {op : MicroOp} {n : Nat} (hr : s.running = true)
    (hw : s.fetchWaits (n + 1) = true) (hl : s.prev = ⟨some op, none, none, none⟩) (hff : op.fetchFault = false)
    (h : step s = .next t) : t.pc = s.pc ∧ t.squashes = s.squashes := by
  obtain ⟨t', ht', _, hpc, hsquashes⟩ := step_of_straightLine_waits hr (by simp [State.memoryOutcome, hl])
    (noLoadAhead_of_deex_none (by rw [hl])) (executePasses_of_no_branch (by simp [State.branchInExecute, hl]))
    (by simp [State.decodePasses, hl, hff, loadUse]) hw
  cases h.symm.trans ht'
  exact ⟨hpc, hsquashes⟩

/-- The cycle from `s` to `t` resolves a branch predicted to `predPc` to `next`, without a fault. -/
structure ResolvesPc (s t : State) (predPc next : Word) : Prop where
  step : step s = .next t
  fault : t.fault = none
  pc : t.pc = next
  mispredicted : predPc ≠ next → t.squashes = s.squashes + 1#64
  predicted : predPc = next → t.squashes = s.squashes

/-- The second cycle of a branch alone squashes to the resolved PC where that was not predicted; where it was, `PC` has
waited there. -/
theorem resolveCycle {s : State} {op : MicroOp} {n : Nat} {next : Word} (hr : s.running = true)
    (hw : s.fetchWaits (n + 1) = true) (hl : s.prev = ⟨none, some op, none, none⟩) (hpc : s.pc = op.predPc)
    (hres : s.resolvedInExecute = some next) (ha : aligned4 next = true) : ∃ t, ResolvesPc s t op.predPc next := by
  have hd : s.memoryOutcome = .done := by simp [State.memoryOutcome, hl]
  have hn : s.noLoadAhead = true := noLoadAhead_of_exmem_none (by rw [hl])
  have hpred : s.predictedInExecute = some op.predPc := by simp [State.predictedInExecute, hl]
  by_cases heq : op.predPc = next
  · have he : s.executePasses = true := by simp [State.executePasses, hres, hpred, heq, ha]
    obtain ⟨t, hstep, hf, hpc', hsquashes⟩ :=
      step_of_straightLine_waits hr hd hn he (by simp [State.decodePasses, hl]) hw
    exact ⟨t, hstep, hf, hpc'.trans (hpc.trans heq), fun hne => absurd heq hne, fun _ => hsquashes⟩
  · have hq : s.squashesTo next = true :=
      (squashesTo_iff s next).mpr ⟨hres, fun h => heq (Option.some_inj.mp (hpred.symm.trans h)), ha⟩
    obtain ⟨t, hstep, hf, q⟩ := step_of_squashesTo hr hd hn hq
    exact ⟨t, hstep, hf, q.pc, fun _ => q.squashes, fun h => absurd h heq⟩

end Sys2Proof.Machine

open Sys2Proof.Machine

/-- Settles O58: the first cycle decodes the branch and leaves `PC` at its prediction, and the second resolves it to its
sequential next address. -/
theorem loneBranchMatchesSequential : Obligations.LoneBranchMatchesSequential := by
  intro s op i c hal hpc hd hb ha
  obtain ⟨hr, _, hl, hff, hw⟩ := (alone_iff s op 2).mp hal
  obtain ⟨s1, h1, u1⟩ := decodeCycle hr hw hl hff hd
  obtain ⟨hpc1, hsquashes1⟩ := decodeCycle_keeps_pc hr hw hl hff h1.step
  have hr1 := h1.running u1.arch hr
  have hres := resolvedInExecute_alone h1.latches hb u1.arch
  obtain ⟨t, ht⟩ := resolveCycle hr1 h1.waits h1.latches (hpc1.trans hpc) hres ((aligned4_iff _).mpr ha)
  obtain ⟨ha2, hmem2⟩ := step_keepsArchitecture_of_bubbles hr1 ht.step ht.fault (by rw [h1.latches]) (by rw [h1.latches])
  have hdrive : drive 2 s = .next t := by
    rw [drive_succ_of_step 1 hr h1.step, drive_succ_of_step 0 hr1 ht.step, drive]
  have harch := u1.arch.trans ha2
  rw [← hsquashes1]
  exact ⟨t, hdrive, ht.fault, ht.pc, harch.x, harch.z, harch.n, hmem2.trans u1.mem, ht.mispredicted, ht.predicted⟩
end

section
/-! SUPPORT. PROOFS of the halt and unknown family (spec/47_halt_unknown.md): `HLT` and `UNKNOWN` in each of their four stages
(R340 to R342). Both declare no field, so they forward nothing and have no load-use hazard. -/

namespace Sys2Proof.Machine

/-- A micro-op that declares nothing waits for no load (R181, R342). -/
theorem loadUse_nothing (e : Latch) : loadUse .nothing e = false := by
  cases hu : loadUse .nothing e with
  | false => rfl
  | true =>
    obtain ⟨_, _, _, _, _, hr⟩ := (loadUse_iff .nothing e).mp hu
    cases hr

end Sys2Proof.Machine

open Sys2Proof.Machine

/-- Settles O27, stage by stage. -/
theorem haltAndUnknownRun : Obligations.HaltAndUnknownRun := by
  intro imm16 s op
  refine ⟨fun hp hl => ?execute, fun hp hl => ?memory, fun hp hl => ?writeBack, fun hp hl => ?decode⟩
  case execute => exact ⟨inStage_ex hp hl, inStage_ex hp hl⟩
  case memory => exact ⟨inStage_mem hp hl, inStage_mem hp hl⟩
  case writeBack => exact ⟨inStage_wb hp hl, inStage_wb hp hl⟩
  case decode =>
    have hhlt : exec (.hlt imm16) s = .next (s.putDeex (some (decodedOp (.instr (.hlt imm16)) s op))).setHalt :=
      (inStage_de hp hl).trans (deHalt_of_noLoadUse (loadUse_nothing _))
    have hunknown : execUnknown s = .next (s.putDeex (some (decodedOp .unknown s op))) :=
      (inStage_de hp hl).trans (deStage_of_noLoadUse (loadUse_nothing _))
    exact ⟨⟨_, hhlt, rfl, rfl⟩, _, hunknown, rfl, rfl⟩
end

section
/-! SUPPORT. PROOFS of the exceptions family (spec/60_exceptions.md): the two faults of execute, for an instruction (R352,
R353); the fault that ends each faulting cycle; and the state that a fault leaves (R351). -/

namespace Sys2Proof.Machine

/-! ### The faults of execute, by the instruction -/

theorem sourcesNotLoaded_eq_false_iff (d : Declared) (l : Latch) :
    sourcesNotLoaded d l = false ↔
      notLoadedBy l d.rn = false ∨ notLoadedBy l d.rm = false ∨ notLoadedBy l d.rt = false := by
  simp only [sourcesNotLoaded, Bool.and_eq_false_iff, or_assoc]

/-- A load ahead of a declared source faults every instruction in execute, before anything it computes (R189, R353). -/
theorem exec_execute_of_loadAhead {i : Instr} {s : State} {op : MicroOp} (hp : s.stage = .ex) (hl : s.prev.deex = some op)
    (h : sourcesNotLoaded (declared i) s.prev.exmem = false) : exec i s = raise .forwardFromLoad s := by
  have hfwd : forward (declared i) s.prev op = .error .forwardFromLoad := by simp [forward_eq, h]
  cases hb : branchKind i with
  | none =>
    obtain ⟨f, he, _⟩ := exec_execute hp hl hb
    rw [he, exStage, hfwd]
  | some c =>
    obtain ⟨target, taken, he⟩ := exec_execute_branch hp hl hb
    rw [he, exBranch, hfwd]

/-- Execute of a branch whose resolved PC is not a multiple of 4 faults, with no load ahead of a declared source (R320). -/
theorem exBranch_of_misaligned {d : Declared} {cond : Bool} {target : MicroOp → Word} {taken : State → MicroOp → Bool}
    {op : MicroOp} {s : State} {next : Word} (hfree : sourcesNotLoaded d s.prev.exmem = true)
    (hnext : resolvedPc (branchedOp d target taken s op) = next) (ha : aligned4 next = false) :
    exBranch d cond target taken op s = raise .misalignedTarget s := by
  rw [exBranch, forward_eq, if_pos hfree]
  subst hnext
  exact if_neg (Bool.eq_false_iff.mp ha)

theorem exec_branch_of_misaligned {i : Instr} {s : State} {op : MicroOp} {c : Bool} (hp : s.stage = .ex)
    (hl : s.prev.deex = some op) (hb : branchKind i = some c) (hfree : sourcesNotLoaded (declared i) s.prev.exmem = true)
    (ha : aligned4 (branchNext s i op) = false) : exec i s = raise .misalignedTarget s := by
  obtain ⟨target, taken, he, hnext⟩ := exec_execute_branch_next hp hl hb
  exact he.trans (exBranch_of_misaligned hfree (hnext (withSources (declared i) s.prev op)) ha)

theorem exec_branch_of_aligned {i : Instr} {s : State} {op : MicroOp} {c : Bool} (hp : s.stage = .ex)
    (hl : s.prev.deex = some op) (hb : branchKind i = some c) (hfree : sourcesNotLoaded (declared i) s.prev.exmem = true)
    (ha : aligned4 (branchNext s i op) = true) : ∃ t, exec i s = .next t ∧ t.fault = s.fault := by
  obtain ⟨target, taken, he, hnext⟩ := exec_execute_branch_next hp hl hb
  exact ⟨_, he.trans (exBranch_of_aligned hfree (hnext (withSources (declared i) s.prev op)) ha), rfl⟩

theorem aligned4_ite {p : Prop} [Decidable p] {a b : Word} (ha : aligned4 a = true) (hb : aligned4 b = true) :
    aligned4 (if p then a else b) = true := by
  split
  · exact ha
  · exact hb

/-- Every next address but that of `BR` is an aligned offset from the instruction's own (R320 to R331). -/
theorem aligned4_nextPcOf {i : Instr} (hbr : ∀ rn, i ≠ .br rn) {pc : Word} (hpc : aligned4 pc = true) (a v : Word)
    (z n : Bool) : aligned4 (nextPcOf i pc a v z n) = true := by
  have hseq : aligned4 (pc + 4#64) = true := aligned4_add_four hpc
  have hcond (imm19 : BitVec 19) : aligned4 (pc + condBranchOffset imm19) = true :=
    aligned4_add hpc (aligned4_condBranchOffset imm19)
  cases i with
  | b imm26 => exact aligned4_add hpc (aligned4_branchOffset imm26)
  | br rn => exact absurd rfl (hbr rn)
  | bEQ imm19 | bNE imm19 | bGE imm19 | bLT imm19 | bGT imm19 | bLE imm19 | cbz imm19 =>
    exact aligned4_ite (hcond imm19) hseq
  | cbnz imm19 => exact aligned4_ite hseq (hcond imm19)
  | _ => exact hseq

/-! ### The cycles that fault -/

/-- A stage's fault ends the cycle: the start of the cycle with the record (R351). -/
theorem settle_raise (s m : State) (f : Fault) (k : State → Out) :
    settle s (andThen (raise f m) k) = .next (takeFault s f) := rfl

/-- A `BR` to an address that is not a multiple of 4 faults the cycle (R320, R322). -/
theorem step_of_misalignedBr {s : State} {op : MicroOp} {rn : Reg} (hr : s.running = true) (hd : s.memoryOutcome = .done)
    (hn : s.noLoadAhead = true) (hl : s.prev.deex = some op) (ht : op.tag = .instr (.br rn))
    (ha : (operandOf s.prev rn op.rnVal).toNat % 4 ≠ 0) : step s = .next (takeFault s .misalignedTarget) := by
  obtain ⟨m, hm, _, _, hstep⟩ := step_of_memoryDone hr hd
  have hprev : m.prev = s.prev := hm.keeps.prev
  have hn' : m.noLoadAhead = true := by simpa only [State.noLoadAhead, hprev] using hn
  have hnext : branchNext m (.br rn) op = operandOf s.prev rn op.rnVal := by rw [← hprev]; rfl
  have ha' : ¬ aligned4 (branchNext m (.br rn) op) = true := by rw [hnext, aligned4_iff]; exact ha
  obtain ⟨o, he⟩ := executeStage_branch (s := m) (c := false) (by rw [hprev, hl]) ht rfl
  rw [hstep, he, if_pos hn', if_neg ha', settle_raise]

/-- A load ahead of a declared operand fails the refresh of a freeze (R191). -/
theorem refresh_of_loadAhead {s : State} (hn : s.noLoadAhead = false) :
    refresh s.prev s.prev.deex = .error .forwardFromLoad := by
  rcases hl : s.prev.deex with _ | op
  · simp [noLoadAhead_of_deex_none hl] at hn
  · rw [noLoadAhead_eq_of_deex_some hl] at hn
    simp [refresh, forward_eq, hn]

/-- A cycle whose memory stage waits goes on with the freeze (R131, R139), on the latches that the cycle started with. -/
theorem step_of_memoryWaits {s : State} (hr : s.running = true) (hw : s.memoryOutcome = .waits) :
    ∃ m, Keeps s.atCycleStart m ∧ m.ctl.updateExecuteWithSavedOp = true ∧
      step s = settle s (andThen (freezeMux m) fun m' => .next (endOfCycle m')) := by
  obtain ⟨m1, hwb⟩ := writeBackStage_total s.atCycleStart
  obtain ⟨m2, hmem⟩ := memoryStage_total m1
  obtain ⟨k1, _, hdc, _, _, _, hfault⟩ := writeBackStage_frame hwb
  have h1 : m1.fault = none := hfault.trans (fault_of_running hr)
  obtain ⟨c, hm2⟩ : ∃ c, m2 = (((m1.atStage .mem).setDc c).putMemwb none).raiseMemStall := by
    rcases memoryStage_outcome (s := s) k1.prev k1.cfg hdc hmem with ⟨hd, _⟩ | ⟨_, hm2⟩ | ⟨hd, _⟩
    · rw [hw] at hd; cases hd
    · exact hm2
    · rw [hw] at hd; cases hd
  have h2 : m2.fault = none := by rw [hm2]; exact h1
  have hstall : m2.ctl.memStall = true := by rw [hm2]; rfl
  have hstages : runStages s = andThen (freezeMux m2) fun m' => .next (endOfCycle m') := by
    show andThen (writeBackStage s.atCycleStart) afterWriteBack = _
    rw [hwb, andThen_ok h1, afterWriteBack, hmem, andThen_ok h2, afterMemory, if_pos hstall]
  refine ⟨m2, k1.trans (memoryStage_frame hmem h2).1, by rw [hm2]; rfl, ?_⟩
  rw [step_of_running (by simpa [State.running] using hr), hstages]

/-- A load ahead of an operand faults a cycle that freezes, in its refresh (R189, R191). -/
theorem step_of_loadAhead_waits {s : State} (hr : s.running = true) (hw : s.memoryOutcome = .waits)
    (hn : s.noLoadAhead = false) : step s = .next (takeFault s .forwardFromLoad) := by
  obtain ⟨m, hkeeps, hctl, hstep⟩ := step_of_memoryWaits hr hw
  have hprev : m.prev = s.prev := hkeeps.prev
  have hheld : freezeMux m = raise .forwardFromLoad m := by
    rw [freezeMux, heldDeex, hctl, if_pos rfl, refresh_of_loadAhead (by simpa only [State.noLoadAhead, hprev] using hn)]
  rw [hstep, hheld, settle_raise]

/-- A cycle that execute passes goes on with decode (R131), on the latches that the cycle started with. -/
theorem step_of_executePasses {s : State} (hr : s.running = true) (hd : s.memoryOutcome = .done)
    (hn : s.noLoadAhead = true) (he : s.executePasses = true) :
    ∃ m, Keeps s.atCycleStart m ∧ step s = settle s (andThen (decodeStage m) afterDecode) := by
  obtain ⟨m2, hm2, _, hflags, hstep⟩ := step_of_memoryDone hr hd
  obtain ⟨m3, hex, hfault, hsquash⟩ := executeStage_of_passes hm2.keeps.prev hflags hn he hm2.noSquash
  have h3 : m3.fault = none := hfault.trans hm2.fault
  refine ⟨m3, hm2.keeps.trans (executeStage_frame hex h3).1, ?_⟩
  rw [hstep, hex, andThen_ok h3, afterExecute_of_noSquash hsquash]

theorem decodeStage_of_fetchFault {s : State} {op : MicroOp} (hl : s.prev.ifde = some op) (hff : op.fetchFault = true) :
    decodeStage s = raise .fetchNotAdmitted (s.atStage .de) := by
  simp only [decodeStage, hl, hff, if_true]

/-- A fetch-fault micro-op that decode consumes faults the cycle (R343). -/
theorem step_of_fetchFault {s : State} {op : MicroOp} (hr : s.running = true) (hd : s.memoryOutcome = .done)
    (hn : s.noLoadAhead = true) (he : s.executePasses = true) (hl : s.prev.ifde = some op) (hff : op.fetchFault = true) :
    step s = .next (takeFault s .fetchNotAdmitted) := by
  obtain ⟨m, k, hstep⟩ := step_of_executePasses hr hd hn he
  have hl' : m.prev.ifde = some op := (congrArg Latches.ifde k.prev).trans hl
  rw [hstep, decodeStage_of_fetchFault hl' hff, settle_raise]

/-- What keeps decode from taking the micro-op in IF→DE: a fetch fault or a load-use hazard (R143, R145). -/
theorem decodePasses_eq_false_iff (s : State) :
    s.decodePasses = false ↔
      ∃ op, s.prev.ifde = some op ∧
        (op.fetchFault = true ∨ loadUse (tagOfWord op.word).declared s.prev.deex = true) := by
  cases hl : s.prev.ifde <;> simp [State.decodePasses, hl, or_iff_not_imp_left]

/-- With no fetch-fault micro-op in IF→DE, a cycle that reaches decode ends in the load-use stall or in a fetch, and faults in
neither (R352). -/
theorem step_fault_none_of_no_fetchFault {s : State} (hr : s.running = true) (hd : s.memoryOutcome = .done)
    (hn : s.noLoadAhead = true) (he : s.executePasses = true) (hff : ∀ op, s.prev.ifde = some op → op.fetchFault = false) :
    ∃ t, step s = .next t ∧ t.fault = none := by
  cases hp : s.decodePasses with
  | true =>
    obtain ⟨m, hstep, _, hf, _⟩ := step_of_straightLine hr hd hn he hp
    exact ⟨_, hstep, (fetchStage_fault m).trans hf⟩
  | false =>
    obtain ⟨op, hl, h⟩ := (decodePasses_eq_false_iff s).mp hp
    have hu := h.resolve_left (by simp [hff op hl])
    obtain ⟨m, _, hf, _, _, _, hend⟩ := stall_of_loadUse hr hn hd hl (hff op hl) hu
    have hf' : (endOfCycle (stallMux m)).fault = none := hf
    exact ⟨_, hend.step_eq hr hf', hf'⟩

/-! ### The state after a fault -/

/-- A step that sets the fault record leaves the rest of the state as it found it (R351). -/
theorem step_eq_takeFault {s t : State} {f : Fault} (hs : s.fault = none) (h : step s = .next t) (ht : t.fault = some f) :
    t = takeFault s f := by
  cases hst : s.stopped with
  | true =>
    rw [step_of_stopped hst] at h
    cases h
    rw [hs] at ht
    cases ht
  | false =>
    rcases step_cases (by simp [State.running, hst]) h with ⟨f', rfl⟩ | ⟨hf, _⟩
    · cases ht; rfl
    · rw [hf] at ht; cases ht

theorem stopped_of_fault {s : State} {f : Fault} (h : s.fault = some f) : s.stopped = true := by
  simp [State.stopped, h]

end Sys2Proof.Machine

open Sys2Proof.Machine

/-- Settles O47, by the stage in which the cycle ends: memory, execute, the refresh of a freeze, or decode. -/
theorem faultingCycles : Obligations.FaultingCycles := by
  intro s hr
  refine ⟨step_of_memoryFaults hr, fun op rn hd hn hl ht ha => step_of_misalignedBr hr hd hn hl ht ha,
    fun hnf hn => ?loadAhead, fun op hd hn he hl hff => step_of_fetchFault hr hd hn he hl hff,
    fun hd hn he hff => step_fault_none_of_no_fetchFault hr hd hn he hff⟩
  case loadAhead =>
    cases ho : s.memoryOutcome with
    | done => exact step_of_loadAhead hr ho hn
    | waits => exact step_of_loadAhead_waits hr ho hn
    | faults => exact absurd ho hnf

/-- Settles O28: forwarding comes before the resolved PC, which is a multiple of 4 for every branch but `BR`. -/
theorem executeStageFaults : Obligations.ExecuteStageFaults := by
  refine ⟨fun i s op hp hl hn => ?loadAhead, fun rn s op hp hl hn ha => ?misaligned,
    fun i c s t op hp hl hf hb hbr hpc h => ?aligned⟩
  case loadAhead => exact exec_execute_of_loadAhead hp hl ((sourcesNotLoaded_eq_false_iff _ _).mpr hn)
  case misaligned =>
    have hfree : sourcesNotLoaded (declared (.br rn)) s.prev.exmem = true := by
      simp only [sourcesNotLoaded, declared, hn]
      rfl
    have hmis : aligned4 (branchNext s (.br rn) op) = false :=
      Bool.eq_false_iff.mpr fun hal => ha ((aligned4_iff _).mp hal)
    exact exec_branch_of_misaligned hp hl rfl hfree hmis
  case aligned =>
    cases hn : sourcesNotLoaded (declared i) s.prev.exmem with
    | false =>
      rw [exec_execute_of_loadAhead hp hl hn] at h
      cases h
      simp
    | true =>
      have hal : aligned4 (branchNext s i op) = true := aligned4_nextPcOf hbr ((aligned4_iff _).mpr hpc) ..
      obtain ⟨t', ht', hf'⟩ := exec_branch_of_aligned hp hl hb hn hal
      rw [h] at ht'
      cases ht'
      simp [hf', hf]

/-- Settles O14: the state is the one a fault takes, which is stopped. -/
theorem faultUndoesItsCycle : Obligations.FaultUndoesItsCycle := fun _ _ _ hs h ht =>
  ⟨step_eq_takeFault hs h ht, step_of_stopped (stopped_of_fault ht), rfl⟩
end

section
/-! SUPPORT. PROOFS of the reset family (spec/70_reset_and_hazards.md R370): the tables of the reset state read as their
defaults everywhere, and the reset state of every valid configuration meets the invariants of the cycle. -/

namespace Sys2Proof.Machine

/-! ### What an empty table reads as -/

theorem tableGet_nil {β : Type} (d : β) (a : Nat) : tableGet d [] a = d := rfl

/-- Every way of a cache in which nothing has been installed is invalid, of age 0 (R34). -/
theorem way_eq_invalid_of_setWays_nil {g : CacheGeometry} {fill : Option Fill} {i : Nat} {w : Way}
    (h : w ∈ setWays g ⟨[], fill⟩ i) : w = Way.invalid :=
  List.eq_of_mem_replicate h

theorem reg_initial (c : Config) (m : Memory) (r : Reg) : (State.initial c m).reg r = 0#64 := by
  simp [State.reg, State.initial]

/-! ### The invariants at reset -/

section
variable (c : Config) (m : Memory)

theorem initial_lru : (State.initial c m).lru = true := rfl

theorem initial_tagsDistinct : (State.initial c m).tagsDistinct = true := rfl

theorem initial_operandsCoherent : (State.initial c m).operandsCoherent = true := operandsCoherent_of_deex_none rfl

theorem initial_noLoadAhead : (State.initial c m).noLoadAhead = true := noLoadAhead_of_deex_none rfl

theorem initial_haltDrains : (State.initial c m).haltDrains = true := rfl

theorem initial_predictorWidths : (State.initial c m).predictorWidths = true :=
  (predictorWidths_iff _).mpr ⟨⟨Nat.two_pow_pos _, rfl, rfl⟩, rfl, rfl⟩

theorem initial_atBoundary : (State.initial c m).atBoundary = true := by
  simp [State.atBoundary, State.initial]

theorem initial_running : (State.initial c m).running = true := rfl

/-- The reset address of a valid configuration is a multiple of 4 (R8, R24). -/
theorem initial_pcAligned (h : c.valid = true) : (State.initial c m).pcAligned = true := by
  obtain ⟨_, _, _, _, hpc⟩ := c.valid_iff.mp h
  exact (pcAligned_iff _).mpr ⟨(aligned4_iff _).mpr hpc, rfl, rfl, rfl⟩

end

theorem default_valid : Config.default.valid = true := by decide

end Sys2Proof.Machine

open Sys2Proof.Machine

/-- Settles O10, component by component: the reset state names its scalars, and its tables are empty. -/
theorem resetValues : Obligations.ResetValues := by
  intro s
  rw [resetMachine_eq_initial]
  refine ⟨reg_initial s.cfg s.mem, rfl, rfl, rfl, rfl, rfl, rfl, rfl, rfl, tableGet_nil 0#2, fun i => ?btb,
    fun i w hw => ?ic, fun i w hw => ?dc, rfl, rfl, rfl, rfl, rfl, rfl, rfl, rfl⟩
  case btb => exact congrArg BtbEntry.valid (tableGet_nil BtbEntry.invalid i)
  case ic => rw [way_eq_invalid_of_setWays_nil hw]; exact ⟨rfl, rfl⟩
  case dc => rw [way_eq_invalid_of_setWays_nil hw]; exact ⟨rfl, rfl⟩

/-- Settles O12, as the reset state of a valid configuration with no memory image. -/
theorem resetMeetsTheInvariants : Obligations.ResetMeetsTheInvariants :=
  ⟨rfl, initial_pcAligned _ _ default_valid, initial_lru _ _, initial_tagsDistinct _ _, initial_operandsCoherent _ _,
    initial_noLoadAhead _ _, initial_haltDrains _ _, initial_predictorWidths _ _, initial_atBoundary _ _,
    initial_running _ _⟩
end
